-- ==== Sys2Proof/Word.lean ====
section
/-! DEFINITION. The word types of the block (spec/00_scope.md R6, spec/30_encoding.md R70). -/

namespace Sys2Proof

/-- One payload byte or one character code (R75, `CHAR_W` = 8). -/
abbrev Byte := BitVec 8

/-- A header or response word of the command port (R81, R84). -/
abbrev Word := BitVec 32

/-- An output-pin index register (R12, R13, R76): 5 bits, 0..19 name OUT0..OUT19. -/
abbrev Pin := BitVec 5

/-- A set of output pins, bit `i` standing for OUT`i` (R104, `NOUT` = 20). -/
abbrev PinMask := BitVec 20

/-- A glyph word (R100). `GW` is a parameter `1 <= GW <= 20` (D1), so the word is held in 20 bits of which
`Params.legal` keeps all at or above `GW` zero. -/
abbrev Glyph := BitVec 20

/-- An output frame (R71): bits 19:0 are the pins, bits 23:20 are unused. -/
abbrev Frame := BitVec 24

end Sys2Proof
end

