-- ==== Sys2Proof/Config.lean ====
section
/-! DEFINITION. The implementation parameters of spec/00_scope.md R5: what an implementation fixes, and the one value the
spec leaves free while the machine goes on. -/

namespace Sys2Proof

/-- `MIDPASS_POLICY` (R5, D24, 93 U2): `hold` rebuilds frames only at the REBUILD micro-step, `mixed` adds a rebuild between
the `LoadHigh` of one position and the `LoadLow` of the next. -/
inductive MidpassPolicy where
  | hold
  | mixed
deriving DecidableEq, Repr

/-- The OPEN parameters of R5, as raw data. -/
structure Params where
  /-- `GW`, bits of a glyph word. -/
  gw : Nat
  /-- `FONT[0..94]`, the ROM image (R11); R101 (a), exactly 95 entries, is in the type. -/
  font : Vector Glyph 95
  /-- `TEXT_CAP`, characters the text buffer holds. -/
  textCap : Nat
  /-- `BLINK_HALF_TICKS`, ticks per blink half period. -/
  blinkHalfTicks : Nat
  /-- `SCROLL_TICKS`, ticks per scroll or demo step. -/
  scrollTicks : Nat
  /-- `MIDPASS_POLICY`. -/
  midpass : MidpassPolicy
deriving DecidableEq, Repr

/-- Entry `a` of the font ROM (R51): no address above 94 can be presented. -/
def Params.romRead (c : Params) (a : Fin 95) : Glyph := c.font.get a

/-- `DP_GLYPH`, the glyph of the full stop (R101 (c), R105). -/
def Params.dpGlyph (c : Params) : Glyph := c.romRead 14

/-- What R5 and R101 ask of the parameters: the ranges of `GW` (D1), `TEXT_CAP` (D7) and the two cadences (D15); entries fit
`GW` bits; entry 0 is blank (b); entry 14 has exactly one bit (c); no other entry equals it (d). -/
abbrev Params.legal (c : Params) : Prop :=
  (1 ≤ c.gw ∧ c.gw ≤ 20) ∧ (1 ≤ c.textCap ∧ c.textCap ≤ 4095) ∧ 1 ≤ c.blinkHalfTicks ∧ 1 ≤ c.scrollTicks ∧
  (∀ a : Fin 95, (c.romRead a).toNat < 2 ^ c.gw) ∧ c.romRead 0 = 0 ∧
  (∃ i : Fin 20, c.dpGlyph = 1#20 <<< (i : Nat)) ∧ ∀ a : Fin 95, a ≠ 14 → c.romRead a ≠ c.dpGlyph

/-- The parameters together with their legality: an image that breaks R101 cannot be instantiated. The model takes them as an
argument by carrying them in `State.cfg`, which no step changes (notes/assumptions/1.md). -/
structure Config extends Params where
  /-- R101 and the ranges of R5 hold. -/
  ok : toParams.legal
deriving DecidableEq, Repr

/-- The bytes of `REF_FONT` in address order (R108). DESIGN CHOICE (unsafe): the spec's own default image, not the hardware's
(notes/assumptions/2.md). -/
def refFontWords : List Glyph :=
  [0x00, 0x06, 0x22, 0x7E, 0x6D, 0x52, 0x46, 0x20, 0x29, 0x0B, 0x21, 0x70, 0x10, 0x40, 0x80, 0x52] ++
  [0x3F, 0x06, 0x5B, 0x4F, 0x66, 0x6D, 0x7D, 0x07, 0x7F, 0x6F, 0x09, 0x0D, 0x61, 0x48, 0x43, 0x53] ++
  [0x5F, 0x77, 0x7C, 0x39, 0x5E, 0x79, 0x71, 0x3D, 0x76, 0x30, 0x1E, 0x75, 0x38, 0x15, 0x37, 0x3F] ++
  [0x73, 0x6B, 0x33, 0x6D, 0x78, 0x3E, 0x3E, 0x2A, 0x76, 0x6E, 0x5B, 0x39, 0x64, 0x0F, 0x23, 0x08] ++
  [0x02, 0x5F, 0x7C, 0x58, 0x5E, 0x7B, 0x71, 0x6F, 0x74, 0x10, 0x0C, 0x75, 0x30, 0x14, 0x54, 0x5C] ++
  [0x73, 0x67, 0x50, 0x6D, 0x78, 0x1C, 0x1C, 0x14, 0x76, 0x6E, 0x5B, 0x46, 0x30, 0x70, 0x01]

/-- `REF_FONT` (R108). -/
def refFont : Vector Glyph 95 := ⟨refFontWords.toArray, rfl⟩

/-- The default and test values of R5 (test configuration `TC` of spec/95_test_vectors.md). DESIGN CHOICE (unsafe):
notes/assumptions/2.md and 3.md. -/
def refParams : Params :=
  { gw := 8, font := refFont, textCap := 32, blinkHalfTicks := 2, scrollTicks := 3, midpass := .hold }

set_option maxRecDepth 4000 in
/-- The reference parameters are legal, so that they make a configuration. -/
theorem refParams_legal : refParams.legal := by decide

/-- The configuration `State.reset` carries. -/
def Config.ref : Config := { refParams with ok := refParams_legal }

/-- `IDXW`, the bits of `text_len`, `visible_idx` and `visible_len` (R5): ceil(log2(TEXT_CAP + 1)). -/
def Params.idxw (c : Params) : Nat := Nat.clog 2 (c.textCap + 1)

/-- `REFRESH_PERIOD_US` (R5): OPEN, and no rule depends on it. -/
opaque Config.refreshPeriodUs : Nat

/-- R201: the blink half period in microseconds. -/
def Config.blinkHalfUs (c : Config) : Nat := c.blinkHalfTicks * Config.refreshPeriodUs

/-- R201: the scroll interval in microseconds. -/
def Config.scrollUs (c : Config) : Nat := c.scrollTicks * Config.refreshPeriodUs

/-- FREE VALUE (safe): what the driver chip's outputs hold after a reset that cut a transmission short (R260, R274, 93 U8:
"any value"). It has no body, so nothing can be proved of it; `State.freeCount` gives each use its own argument
(notes/assumptions/6.md). -/
opaque Config.chipOutFree : Nat → PinMask

end Sys2Proof
end

