-- ==== Sys2Proof/Syntax.lean ====
section
/-! DEFINITION. The commands of the command port (spec/30_encoding.md R83), one constructor per row of
spec/opcode_table.json, with operands as the block uses them. -/

namespace Sys2Proof

/-- The alignment of R18 and R79. -/
inductive Align where
  | left
  | center
  | right
deriving DecidableEq, Repr

/-- The display effect of R19 and R79. -/
inductive Effect where
  | none
  | blink
  | scrollLeft
deriving DecidableEq, Repr

/-- The demo mode of R24 and R79. -/
inductive DemoMode where
  | off
  | scrollFont
deriving DecidableEq, Repr

/-- A command with its payload. A header field that the command ignores (R81) is no operand; `N` is the payload's length. -/
inductive Instr where
  /-- `SETUP`: `A` = NSEG, `B` = NDIG, payload = SegmentMap then PositionMap (R82, R121). -/
  | setup (nseg ndig : Byte) (payload : List Byte)
  /-- `SET_TEXT`: `A` = start_pos, `B` = max_pos, payload = the text, leftmost first (R125). -/
  | setText (startPos maxPos : Byte) (text : List Byte)
  /-- `SET_TEXT_ALIGN` (R130). -/
  | setTextAlign (align : Align)
  /-- `SET_TEXT_EFFECT`: `B` = cycle_num (R134). -/
  | setTextEffect (effect : Effect) (cycles : Byte)
  /-- `SCROLL_LEFT` (R137). -/
  | scrollLeft
  /-- `SET_DEMO_MODE`: `B` = cycle_count (R139). -/
  | setDemoMode (mode : DemoMode) (cycles : Byte)
  /-- `PRINT`: `A` = position, payload = the text (R141). -/
  | print (position : Byte) (text : List Byte)
  /-- Reserved opcode 0x0 (R85). -/
  | reserved0
  /-- Reserved opcode 0x8 (R85). -/
  | reserved8
  /-- Reserved opcode 0x9 (R85). -/
  | reserved9
  /-- Reserved opcode 0xA (R85). -/
  | reservedA
  /-- Reserved opcode 0xB (R85). -/
  | reservedB
  /-- Reserved opcode 0xC (R85). -/
  | reservedC
  /-- Reserved opcode 0xD (R85). -/
  | reservedD
  /-- Reserved opcode 0xE (R85). -/
  | reservedE
  /-- Reserved opcode 0xF (R85). -/
  | reservedF
deriving DecidableEq, Repr

end Sys2Proof
end

