-- ==== Sys2Proof/WellFormed.lean ====
section
/-! DEFINITION. Which commands the command port can carry (spec/30_encoding.md R81, R82). -/

namespace Sys2Proof

/-- The payload bytes of a command that carries operands in them (R82). -/
def Instr.payload : Instr → List Byte
  | .setup _ _ pl => pl
  | .setText _ _ txt => txt
  | .print _ txt => txt
  | .setTextAlign _ | .setTextEffect _ _ | .scrollLeft | .setDemoMode _ _ => []
  | .reserved0 | .reserved8 | .reserved9 | .reservedA | .reservedB => []
  | .reservedC | .reservedD | .reservedE | .reservedF => []

/-- A command is well formed when its payload's length fits the 12-bit field `N` (R81: 0..4095). Every other value of every
operand has a meaning (93 U9: "Nothing is undefined on the command port"). -/
def Instr.wf (i : Instr) : Bool := decide (i.payload.length ≤ 4095)

end Sys2Proof
end

