-- ==== Sys2Proof/Decode.lean ====
section
/-! DEFINITION. Decoding and encoding of commands (spec/30_encoding.md R79 to R85). -/

namespace Sys2Proof

/-- Why a command's words are rejected by the decoder. -/
inductive DecodeError where
  /-- Fewer payload bytes are present than the header's `N` asks for (R80). -/
  | payloadShort (wanted got : Nat)
deriving DecidableEq, Repr

/-- Header field `OP`, bits 31:28 (R81). -/
def hdrOp (h : Word) : BitVec 4 := h.extractLsb' 28 4

/-- Header field `A`, bits 27:20 (R81). -/
def hdrA (h : Word) : Byte := h.extractLsb' 20 8

/-- Header field `B`, bits 19:12 (R81). -/
def hdrB (h : Word) : Byte := h.extractLsb' 12 8

/-- Header field `N`, bits 11:0, the number of payload bytes (R81). -/
def hdrN (h : Word) : Nat := (h.extractLsb' 0 12).toNat

/-- `align` in `A[1:0]`; the value 3 has no name and decodes to left (R79). -/
def decodeAlign (a : Byte) : Align :=
  match (a.extractLsb' 0 2).toNat with
  | 1 => .center
  | 2 => .right
  | _ => .left

/-- `effect` in `A[1:0]`; the value 3 has no name and decodes to none (R79). -/
def decodeEffect (a : Byte) : Effect :=
  match (a.extractLsb' 0 2).toNat with
  | 1 => .blink
  | 2 => .scrollLeft
  | _ => .none

/-- demo `mode` in `A[1:0]`; the values 2 and 3 have no name and decode to off (R79). -/
def decodeDemoMode (a : Byte) : DemoMode :=
  match (a.extractLsb' 0 2).toNat with
  | 1 => .scrollFont
  | _ => .off

/-- The command of a header and its `N` payload bytes (R83, R85). Every header is a command: the nine opcodes that name none
are the reserved commands. Fields and payload bytes a command does not use are dropped here (R81). -/
def decodeCommand (h : Word) (pl : List Byte) : Instr :=
  match (hdrOp h).toNat with
  | 0x0 => .reserved0
  | 0x1 => .setup (hdrA h) (hdrB h) pl
  | 0x2 => .setText (hdrA h) (hdrB h) pl
  | 0x3 => .setTextAlign (decodeAlign (hdrA h))
  | 0x4 => .setTextEffect (decodeEffect (hdrA h)) (hdrB h)
  | 0x5 => .scrollLeft
  | 0x6 => .setDemoMode (decodeDemoMode (hdrA h)) (hdrB h)
  | 0x7 => .print (hdrA h) pl
  | 0x8 => .reserved8
  | 0x9 => .reserved9
  | 0xA => .reservedA
  | 0xB => .reservedB
  | 0xC => .reservedC
  | 0xD => .reservedD
  | 0xE => .reservedE
  | _ => .reservedF

/-- Reads one command from a header word and the bytes after it: the command and the bytes left over (R80: the length is
known from the header alone). -/
def decode (h : Word) (bytes : List Byte) : Except DecodeError (Instr × List Byte) :=
  if bytes.length < hdrN h then .error (.payloadShort (hdrN h) bytes.length)
  else .ok (decodeCommand h (bytes.take (hdrN h)), bytes.drop (hdrN h))

/-- A header word put together from its fields (R81). -/
def mkHeader (op : BitVec 4) (a b : Byte) (n : Nat) : Word := op ++ a ++ b ++ BitVec.ofNat 12 n

/-- The number of an alignment (R79). -/
def Align.code : Align → BitVec 8
  | .left => 0
  | .center => 1
  | .right => 2

/-- The number of an effect (R79). -/
def Effect.code : Effect → BitVec 8
  | .none => 0
  | .blink => 1
  | .scrollLeft => 2

/-- The number of a demo mode (R79). -/
def DemoMode.code : DemoMode → BitVec 8
  | .off => 0
  | .scrollFont => 1

/-- The header and payload the assembler writes for a command (R83); unused fields are written as 0 (R81). -/
def encode (i : Instr) : Word × List Byte :=
  match i with
  | .setup a b pl => (mkHeader 0x1 a b pl.length, pl)
  | .setText a b txt => (mkHeader 0x2 a b txt.length, txt)
  | .setTextAlign a => (mkHeader 0x3 a.code 0 0, [])
  | .setTextEffect e c => (mkHeader 0x4 e.code c 0, [])
  | .scrollLeft => (mkHeader 0x5 0 0 0, [])
  | .setDemoMode m c => (mkHeader 0x6 m.code c 0, [])
  | .print p txt => (mkHeader 0x7 p 0 txt.length, txt)
  | .reserved0 => (mkHeader 0x0 0 0 0, [])
  | .reserved8 => (mkHeader 0x8 0 0 0, [])
  | .reserved9 => (mkHeader 0x9 0 0 0, [])
  | .reservedA => (mkHeader 0xA 0 0 0, [])
  | .reservedB => (mkHeader 0xB 0 0 0, [])
  | .reservedC => (mkHeader 0xC 0 0 0, [])
  | .reservedD => (mkHeader 0xD 0 0 0, [])
  | .reservedE => (mkHeader 0xE 0 0 0, [])
  | .reservedF => (mkHeader 0xF 0 0 0, [])

/-- The header word in the low 32 bits of a command's bits numbered as spec/opcode_table.json numbers them. -/
def tableHeader (nbits w : Nat) : Word := BitVec.ofNat 32 (w % 2 ^ nbits)

/-- The `n` payload bytes that follow such a header, byte `k` in bits `32 + 8k` and up; every bit at or above `nbits` is 0. -/
def tablePayload (nbits w n : Nat) : List Byte :=
  (List.range n).map fun k => BitVec.ofNat 8 ((w % 2 ^ nbits) >>> (32 + 8 * k))

/-- The command the decoder reads from the bits `w` of an opcode-table row. -/
def decodeTableWord (nbits w : Nat) : Option Instr :=
  match decode (tableHeader nbits w) (tablePayload nbits w (hdrN (tableHeader nbits w))) with
  | .ok (i, _) => some i
  | .error _ => none

end Sys2Proof
end

