-- ==== Sys2Proof/Machine/State.lean ====
section
/-! DEFINITION. The state of the block, of the driver chip and of the adjacent BrightnessController, as plain data
(spec/10_state.md R10 to R37), and the state after reset (R37, R260, R261). -/

namespace Sys2Proof.Machine

/-- The text buffer `TEXT` (R16, R50): (address, character) pairs, addresses strictly rising. An address that is not listed
holds no value, and a read of it faults (R37, R52; notes/assumptions/4.md). -/
abbrev Memory := List Host.Cell

/-- The register file `FRAME` (R14): 20 entries, one frame each. -/
abbrev FrameFile := Vector Frame 20

/-- The canonical form of the text buffer: strictly rising addresses. -/
abbrev Memory.wf (m : Memory) : Prop := m.Pairwise fun x y => x.1 < y.1

/-- Why a step stops with a fault. No run from reset reaches one (R14, R52): the refresh engine alone raises them, in states
that break the invariants R13, R15 and R23. All are safe: the model stops. -/
inductive Fault where
  /-- REBUILD read `TEXT[k]` with `k >= text_len` or never written (R52: "A model faults on such a read"). Safe. -/
  | textUndefined (k : Nat)
  /-- REBUILD or TX_LOW addressed entry `p >= 20` of `POSMAP` or `FRAME`, which have 20 entries (R13, R14). Safe. -/
  | noSuchPosition (p : Nat)
deriving DecidableEq, Repr

/-- Why a step is refused. All are safe: the model stops. -/
inductive Refusal where
  /-- An instruction that has no meaning yet; raised by no arm of `exec`. Safe. -/
  | notModelled (mnemonic : String)
  /-- The host presented a header while a command was still arriving: two commands at once (R62, R80, 93 U4: "refuse"). Safe. -/
  | headerDuringCommand
  /-- The host presented a payload byte with no command in progress, which the port's protocol does not have (R80, R266 (c)).
  Safe. -/
  | payloadOutsideCommand
  /-- A completed command that the decoder rejects. Raised in no state, since a command is complete only when its `N` payload
  bytes have arrived (R80). Safe. -/
  | undecodable (e : DecodeError)
deriving DecidableEq, Repr

/-- The state of the refresh scheduler (R30). -/
inductive Fsm where
  | idle
  | advance
  | rebuild
  | txLow
  | txShift
  | txHigh
deriving DecidableEq, Repr

/-- The 3-bit number of a scheduler state (R30); 6 and 7 are unreachable and name none. -/
def Fsm.code : Fsm → BitVec 3
  | .idle => 0
  | .advance => 1
  | .rebuild => 2
  | .txLow => 3
  | .txShift => 4
  | .txHigh => 5

/-- An event of the serial port's trace (R7, R33, R186 to R188). -/
inductive SerialEvent where
  | loadLow
  | bit (b : Bool)
  | loadHigh
deriving DecidableEq, Repr

/-- The status of a response (R221). -/
inductive Status where
  | ok
  | outOfRange
  | badMap
  | ignored
  | badCmd
deriving DecidableEq, Repr

/-- What the command port holds (R80, R260): nothing, or a header and the payload bytes received so far. -/
inductive Port where
  | idle
  | receiving (header : Word) (got : List Byte)
deriving DecidableEq, Repr

/-- A brightness fraction handed to `set_brightness`: `num / (denPred + 1)`, so that no denominator is zero (R242). -/
structure Fraction where
  num : Int
  denPred : Nat
deriving DecidableEq, Repr

/-- The adjacent BrightnessController (R240 to R244). -/
structure Brightness where
  /-- The fraction last set, clamped to [0, 1]. -/
  fraction : Fraction
  /-- The fraction whose duty was last written to the PWM ("the currently applied value", R243). -/
  applied : Fraction
  /-- The PWM resolution, its bit depth (R240). -/
  resolutionBits : Nat
  /-- The maximum duty count; 0 while no PWM is provisioned (R241). -/
  maxDuty : Nat
  /-- The duty the PWM hardware holds. -/
  duty : Nat
  /-- The dirty flag: a duty waits to be written (R240, R243). -/
  dirty : Bool
  /-- The PWM could not be provisioned; the blanking pin is held at display-enabled (R241, R244). -/
  pwmFailed : Bool
deriving DecidableEq, Repr

/-- What happens next, as the host and the environment choose it (R58, R223, R226). The order of events is the environment's, so a
list of events is one interleaving of R58. -/
inductive Event where
  /-- One micro-step of the refresh FSM (R180). -/
  | micro
  /-- A tick arrives (R181). -/
  | tick
  /-- The reset event (R260). -/
  | reset
  /-- The host presents a header word (R80). -/
  | header (w : Word)
  /-- The host presents the next payload byte (R80). -/
  | payload (b : Byte)
  /-- The extra step of `MIDPASS_POLICY = mixed` (93 U2). -/
  | midpassRebuild
  /-- `configure` of the BrightnessController, with the answer of its PWM collaborator: the maximum duty, 0 on failure (R241). -/
  | configurePwm (resolutionBits answer : Nat)
  /-- `set_brightness` (R242). -/
  | setBrightness (f : Fraction)
  /-- The BrightnessController writes its pending duty to the PWM (R243). -/
  | writeDuty
deriving DecidableEq, Repr

/-- The whole state. INVENTORY.md lists every field with its width, rule and reset value. -/
structure State where
  /-- The parameters of R5 and the font ROM `FONT` (R11); no step writes it. -/
  cfg : Config
  /-- `configured` (R15). -/
  configured : Bool
  /-- `NSEG` (R15). -/
  nseg : BitVec 5
  /-- `NDIG` (R15). -/
  ndig : BitVec 5
  /-- `SEGMAP[0..19]` (R12). -/
  segMap : Vector Pin 20
  /-- `POSMAP[0..19]` (R13). -/
  posMap : Vector Pin 20
  /-- `TEXT[0..TEXT_CAP-1]` (R16). -/
  text : Memory
  /-- `text_len` (R16), `IDXW` bits. -/
  textLen : Nat
  /-- `start_pos` (R17). -/
  startPos : BitVec 5
  /-- `max_pos` (R17). -/
  maxPos : BitVec 5
  /-- `align` (R18). -/
  align : Align
  /-- `effect` (R19). -/
  effect : Effect
  /-- `cycle_num` (R20). -/
  cycleNum : BitVec 8
  /-- `visible_idx` (R21), `IDXW` bits. -/
  visibleIdx : Nat
  /-- `visible_len` (R21), `IDXW` bits. -/
  visibleLen : Nat
  /-- `content_changed` (R22). -/
  contentChanged : Bool
  /-- `demo_mode` (R24). -/
  demoMode : DemoMode
  /-- `demo_cycle_num` (R24). -/
  demoCycleNum : BitVec 8
  /-- `demo_idx` (R25). -/
  demoIdx : BitVec 7
  /-- `demo_cycles_left` (R25). -/
  demoCyclesLeft : BitVec 8
  /-- `blink_on` (R26). -/
  blinkOn : Bool
  /-- `eff_timer` (R27). -/
  effTimer : Nat
  /-- `cycles_left` (R28). -/
  cyclesLeft : BitVec 8
  /-- `FRAME[0..19]` (R14). -/
  frame : FrameFile
  /-- `fsm` (R30). -/
  fsm : Fsm
  /-- `digit_idx` (R31). -/
  digitIdx : BitVec 5
  /-- `bit_idx` (R31). -/
  bitIdx : BitVec 5
  /-- `shreg` (R31). -/
  shreg : Frame
  /-- `tick_pending` (R32). -/
  tickPending : Bool
  /-- The latch line `load` (R33). -/
  load : Bool
  /-- The serial data line `din` (R33). -/
  din : Bool
  /-- The serial clock line `clk` (R33). -/
  clk : Bool
  /-- The driver chip's shift register `SR` (R34). -/
  chipSr : PinMask
  /-- The driver chip's latched outputs `OUT` (R34). -/
  chipOut : PinMask
  /-- The BrightnessController (R240). -/
  bright : Brightness
  /-- The command in progress on the command port (R80, R260). -/
  port : Port
  /-- The response words answered so far, oldest first (R80, R84). -/
  responses : List Word
  /-- The serial port's event trace, oldest first (R7, R50). -/
  trace : List SerialEvent
  /-- The MODEL's own: the events to come, as the environment orders them (R58, R226; notes/assumptions/9.md). -/
  events : List Event
  /-- The MODEL's own: how many free values have been used (notes/assumptions/6.md). -/
  freeCount : Nat
deriving DecidableEq, Repr

/-- The machine right after reset: R37, with the reference configuration, an idle environment and empty output logs. `TEXT` holds
nothing (R261). DESIGN CHOICE (unsafe) where the spec gives no value: `frame` (notes/assumptions/5.md), `chipSr` and `chipOut`
(notes/assumptions/7.md), `bright` (notes/assumptions/8.md), `cfg` (notes/assumptions/2.md, 3.md), `freeCount`
(notes/assumptions/6.md). -/
def State.reset : State where
  cfg := Config.ref
  configured := false
  nseg := 0
  ndig := 0
  segMap := Vector.replicate 20 0
  posMap := Vector.replicate 20 0
  text := []
  textLen := 0
  startPos := 0
  maxPos := 0
  align := .left
  effect := .none
  cycleNum := 0
  visibleIdx := 0
  visibleLen := 0
  contentChanged := false
  demoMode := .off
  demoCycleNum := 0
  demoIdx := 0
  demoCyclesLeft := 0
  blinkOn := true
  effTimer := 0
  cyclesLeft := 0
  frame := Vector.replicate 20 0
  fsm := .idle
  digitIdx := 0
  bitIdx := 0
  shreg := 0
  tickPending := false
  load := true
  din := false
  clk := false
  chipSr := 0
  chipOut := 0
  bright :=
    { fraction := ⟨0, 0⟩, applied := ⟨0, 0⟩, resolutionBits := 0, maxDuty := 0, duty := 0, dirty := false, pwmFailed := false }
  port := .idle
  responses := []
  trace := []
  events := []
  freeCount := 0

/-- The outcome of one step of this machine. -/
abbrev Result := Host.Outcome State Fault Refusal

end Sys2Proof.Machine
end

