-- ==== Sys2Proof/Machine/Ops.lean ====
section
/-! DEFINITION. The named operations over storage, the command port, the serial port and the events of the block: cell reads
and writes (spec/20_memory.md R50 to R56), the response of a command and its rejection (R84, R120, R220), `emit` with the
driver chip behind it (R236, R237), tick arrival, tick entry and pass end (R181, R182, R227, R228), and reset (R260). -/

namespace Sys2Proof.Machine

/-- The value listed at address `a`, if one is. -/
def cellRead {α : Type} (m : List (Nat × α)) (a : Nat) : Option α :=
  match m with
  | [] => none
  | (b, v) :: t => if a = b then some v else cellRead t a

/-- Writes `v` at address `a`, keeping addresses strictly rising. -/
def cellWrite {α : Type} (m : List (Nat × α)) (a : Nat) (v : α) : List (Nat × α) :=
  match m with
  | [] => [(a, v)]
  | (b, w) :: t => if a < b then (a, v) :: (b, w) :: t else if a = b then (a, v) :: t else (b, w) :: cellWrite t a v

/-- Writes the bytes of `l` at addresses `k`, `k + 1`, ... -/
def writeBytes (m : Memory) (k : Nat) (l : List Byte) : Memory :=
  match l with
  | [] => m
  | b :: t => writeBytes (cellWrite m k b) (k + 1) t

/-- `MemRead(TEXT:k, 1)` (R52): defined for `k < text_len`, a fault elsewhere. -/
def textRead (s : State) (k : Nat) : Except Fault Byte :=
  if k < s.textLen then
    match cellRead s.text k with
    | some c => .ok c
    | none => .error (.textUndefined k)
  else .error (.textUndefined k)

/-- A read of `FRAME[p]` (R14); a fault for an entry that the 20-entry file does not have. -/
def frameRead (s : State) (p : Nat) : Except Fault Frame :=
  match s.frame[p]? with
  | some f => .ok f
  | none => .error (.noSuchPosition p)

/-- `SEGMAP[i]` (R12). `ENCODE_PINS` asks only for `i < min(NSEG, GW) <= 20`, so an entry outside the file is never asked for. -/
def segPin (s : State) (i : Nat) : Pin := s.segMap[i]?.getD 0

/-- `POSMAP[p]` (R13); a fault for an entry that the 20-entry file does not have. -/
def posPin (s : State) (p : Nat) : Except Fault Pin :=
  match s.posMap[p]? with
  | some pin => .ok pin
  | none => .error (.noSuchPosition p)

/-- Writes pins into a map's register file from entry `base` on, each payload byte's bits 4:0 (R122). -/
def writeMap (v : Vector Pin 20) (base : Nat) (l : List Byte) : Vector Pin 20 :=
  match l with
  | [] => v
  | b :: t => writeMap (v.setIfInBounds base (b.setWidth 5)) (base + 1) t

/-- The number of a status (R221). -/
def Status.code : Status → BitVec 4
  | .ok => 0
  | .outOfRange => 1
  | .badMap => 2
  | .ignored => 3
  | .badCmd => 4

/-- The response word (R84): zero, `status`, `count`. -/
def responseWord (st : Status) (count : Nat) : Word := (0 : BitVec 16) ++ st.code ++ BitVec.ofNat 12 count

/-- `respond(status, count)`: the one response of a command (R7, R84, R120). -/
def State.respond (s : State) (st : Status) (count : Nat) : State :=
  { s with responses := s.responses ++ [responseWord st count] }

/-- `raise <Status>(0)` (R7, R120, R220), the block's analogue of taking a synchronous exception: no register is written and the
status goes out in the response. -/
def raiseStatus (st : Status) (s : State) : Result := .next (s.respond st 0)

/-- The driver chip's shift register after an event of the serial port (R34, R237): a `Bit` enters at stage 0 and moves the
others up, so that the last 20 of 24 bits remain and bits 23:20 have no effect. PRESUMED (R239) between the bits of one
transmission, where no rule reads `SR` (notes/assumptions/7.md). -/
def chipShift (sr : PinMask) (e : SerialEvent) : PinMask :=
  match e with
  | .loadLow => sr
  | .bit b => (sr <<< 1) ||| (BitVec.ofBool b).setWidth 20
  | .loadHigh => sr

/-- The driver chip's outputs after an event of the serial port (R237): they change at `LoadHigh` only. -/
def chipLatch (sr out : PinMask) (e : SerialEvent) : PinMask :=
  match e with
  | .loadLow => out
  | .bit _ => out
  | .loadHigh => sr

/-- `emit(e)` (R7): the event joins the trace and reaches the driver chip. -/
def State.emit (s : State) (e : SerialEvent) : State :=
  { s with trace := s.trace ++ [e], chipSr := chipShift s.chipSr e, chipOut := chipLatch s.chipSr s.chipOut e }

/-- `TICK_ARRIVAL` (R181): one tick is remembered, a second is absorbed. -/
def tickArrival (s : State) : State := { s with tickPending := true }

/-- Tick entry (R182, R227), the block's analogue of taking an interrupt: the pending bit is cleared and, if the block is
configured, the pass starts; nothing is saved and no mode changes. -/
def enterPass (s : State) : State :=
  { s with tickPending := false, fsm := if s.configured then .advance else .idle }

/-- End of a pass (R188, R228), the analogue of the return: back to IDLE, and nothing to restore. -/
def leavePass (s : State) : State := { s with fsm := .idle }

/-- The reset event (R260, R261): every register of the block takes its value of R37 and a command in progress is discarded
without a response; the font and parameters, the chip and the BrightnessController are not reset, and nothing is emitted. A
reset between a `LoadLow` and its `LoadHigh` (`load` is 0) leaves the chip's outputs at a free value (R260, R274, 93 U8). -/
def resetEvent (s : State) : State :=
  { State.reset with
    cfg := s.cfg
    chipSr := s.chipSr
    chipOut := if s.load then s.chipOut else Config.chipOutFree s.freeCount
    freeCount := if s.load then s.freeCount else s.freeCount + 1
    bright := s.bright
    responses := s.responses
    trace := s.trace
    events := s.events }

end Sys2Proof.Machine
end

