-- ==== Sys2Proof/Machine/Operands.lean ====
section
/-! DEFINITION. What the commands compute from their operands: the validity of maps and windows, the window width, the stored
text and the alignment (spec/41_display_text_commands.md R121 to R132). -/

namespace Sys2Proof.Machine

/-- `setup_valid` (R121). -/
def setupValid (s : State) (a b : Byte) (pl : List Byte) : Bool :=
  decide (s.configured = false ∧ pl.length = a.toNat + b.toNat ∧ (1 ≤ a.toNat ∧ 1 ≤ b.toNat) ∧ a.toNat + b.toNat ≤ 20 ∧
    (∀ x ∈ pl, x.toNat ≤ 19) ∧ pl.Nodup)

/-- `window_valid(A, B)` (R125): the operands are compared in full, never truncated (R77). -/
def windowValid (s : State) (a b : Nat) : Bool :=
  decide (s.configured = true ∧ a ≤ b ∧ b < s.ndig.toNat ∧ b ≤ s.cfg.textCap)

/-- The window width `W = max_pos - start_pos + 1` (R127). -/
def windowWidth (s : State) : Nat := s.maxPos.toNat + 1 - s.startPos.toNat

/-- The part of a text that is stored: its first `TEXT_CAP` characters (R126, D7). -/
def storedText (s : State) (txt : List Byte) : List Byte := txt.take s.cfg.textCap

/-- The `visible_idx` an alignment computes (R131): `d = text_len - W` in the integers, then `max(0, .)`; the centre takes the
floor of `d / 2`. -/
def alignedIdx (s : State) (a : Align) : Nat :=
  match a with
  | .left => 0
  | .right => (max 0 ((s.textLen : Int) - windowWidth s)).toNat
  | .center => (max 0 (((s.textLen : Int) - windowWidth s) / 2)).toNat

end Sys2Proof.Machine
end

