-- ==== Sys2Proof/Machine/Flags.lean ====
section
/-! DEFINITION. The one-bit status flags of R36 and the counted end of an effect: the only condition computations the block
has (spec/10_state.md R22, R26, R36; spec/44_blink_scroll_timer.md R203, R205, R207). -/

namespace Sys2Proof.Machine

/-- `content_changed <- 1`, by every accepted mutator (R22). -/
def State.markChanged (s : State) : State := { s with contentChanged := true }

/-- `content_changed <- 0`, by REBUILD alone (R22). -/
def State.clearChanged (s : State) : State := { s with contentChanged := false }

/-- Whether REBUILD lights segments in direct text mode (R160, R164): not in the off half of a blink. -/
def segmentsShown (s : State) : Bool := !(s.effect == .blink && !s.blinkOn)

/-- One cycle of a counted effect is complete (R203, R205): with `cycle_num != 0` the count goes down, and at 0 the effect
becomes none; with `cycle_num = 0` the effect runs forever (R20). -/
def countCycle (s : State) : State :=
  if s.cycleNum = 0 then s
  else { s with cyclesLeft := s.cyclesLeft - 1, effect := if s.cyclesLeft - 1 = 0 then .none else s.effect }

/-- One cycle of a counted demo is complete (R207). -/
def countDemoCycle (s : State) : State :=
  if s.demoCycleNum = 0 then s
  else { s with demoCyclesLeft := s.demoCyclesLeft - 1, demoMode := if s.demoCyclesLeft - 1 = 0 then .off else s.demoMode }

end Sys2Proof.Machine
end

