-- ==== Sys2Proof/Machine/Encoder.lean ====
section
/-! DEFINITION. Font lookup and segment encoder: GLYPH, ENCODE_PINS, IS_DP_ONLY (spec/40_font_rom_segment_encoder.md R102 to
R106). -/

namespace Sys2Proof.Machine

/-- The ROM address of a character code (R75, R102): `c - 0x20` for the 95 supported codes, 0 for every other. -/
def romAddr (c : Byte) : Fin 95 :=
  if h : 0x20 ≤ c.toNat ∧ c.toNat ≤ 0x7E then ⟨c.toNat - 0x20, by omega⟩ else 0

/-- `GLYPH(c)` (R102). -/
def glyph (s : State) (c : Byte) : Glyph := s.cfg.romRead (romAddr c)

/-- The pins of segment indices below `n` that the glyph `g` lights (the loop of R104). -/
def litPins (s : State) (g : Glyph) (n : Nat) : PinMask :=
  match n with
  | 0 => 0
  | i + 1 => if g.getLsbD i then litPins s g i ||| (1#20 <<< (segPin s i).toNat) else litPins s g i

/-- `ENCODE_PINS(c)` (R104): glyph bits at index `min(NSEG, GW)` and above have no pin and are dropped. -/
def encodePins (s : State) (c : Byte) : PinMask := litPins s (glyph s c) (min s.nseg.toNat s.cfg.gw)

/-- `IS_DP_ONLY(c)` (R105): the glyph read is the decimal point's. -/
def isDpOnly (s : State) (c : Byte) : Bool := glyph s c == s.cfg.dpGlyph

end Sys2Proof.Machine
end

