-- ==== Sys2Proof/Machine/Multiplexer.lean ====
section
/-! DEFINITION. The digit position multiplexer: REBUILD (spec/42_digit_position_multiplexer.md R160 to R166). -/

namespace Sys2Proof.Machine

/-- What REBUILD walks over (R160): the first and last position that take characters, the first character and the end of the
visible substring, and whether segments are lit. -/
structure WalkPlan where
  lo : Nat
  hi : Nat
  start : Nat
  stop : Nat
  shown : Bool
deriving DecidableEq, Repr

/-- The plan of R160: the font sequence over the whole display in demo mode (R165), the visible substring over the window
otherwise (R161). -/
def walkPlan (s : State) : WalkPlan :=
  match s.demoMode with
  | .scrollFont =>
    { lo := 0, hi := s.ndig.toNat - 1, start := s.demoIdx.toNat,
      stop := s.demoIdx.toNat + min (95 - s.demoIdx.toNat) s.ndig.toNat, shown := true }
  | .off =>
    { lo := s.startPos.toNat, hi := s.maxPos.toNat, start := s.visibleIdx, stop := s.visibleIdx + s.visibleLen,
      shown := segmentsShown s }

/-- `src(k)` of R160: the virtual text `DEMO[k] = 0x20 + k` (R53, R165) or `TEXT[k]` (R52). -/
def sourceRead (s : State) (k : Nat) : Except Fault Byte :=
  match s.demoMode with
  | .scrollFont => .ok (BitVec.ofNat 8 (0x20 + k))
  | .off => textRead s k

/-- The pins of the character at cursor `k`, and the cursor after it (R161, R162): a plain glyph takes a decimal point that
follows it inside the visible substring into its own position. -/
def takeCharacter (s : State) (k stop : Nat) : Except Fault (PinMask × Nat) := do
  let c ← sourceRead s k
  if isDpOnly s c = false ∧ k + 1 < stop then
    let d ← sourceRead s (k + 1)
    if isDpOnly s d then pure (encodePins s c ||| encodePins s d, k + 2) else pure (encodePins s c, k + 1)
  else pure (encodePins s c, k + 1)

/-- The frame that selects position `p` and lights nothing (R160, R163). -/
def blankFrame (s : State) (p : Nat) : Except Fault Frame := do
  let pin ← posPin s p
  pure (1#24 <<< pin.toNat)

/-- The frame of position `p` and the cursor after it (R160, R161, R163, R164). -/
def buildFrame (s : State) (w : WalkPlan) (p k : Nat) : Except Fault (Frame × Nat) := do
  let sel ← blankFrame s p
  if w.lo ≤ p ∧ p ≤ w.hi ∧ k < w.stop then
    let (segs, k') ← takeCharacter s k w.stop
    pure (if w.shown then sel ||| segs.setWidth 24 else sel, k')
  else pure (sel, k)

/-- Positions `p`, `p + 1`, ..., `p + n - 1` of the walk, left to right (R160), written into the register file `f`. -/
def buildFrames (s : State) (w : WalkPlan) (n p k : Nat) (f : FrameFile) : Except Fault FrameFile :=
  match n with
  | 0 => .ok f
  | n + 1 => do
    let (fr, k') ← buildFrame s w p k
    buildFrames s w n (p + 1) k' (f.setIfInBounds p fr)

/-- `REBUILD()` (R160): one frame per digit position, and the dirty flag is cleared. -/
def rebuild (s : State) : Except Fault State := do
  let f ← buildFrames s (walkPlan s) s.ndig.toNat 0 (walkPlan s).start s.frame
  pure { s with frame := f, contentChanged := false }

end Sys2Proof.Machine
end

