-- ==== Sys2Proof/Machine/Timer.lean ====
section
/-! DEFINITION. The blink and scroll timer: ADVANCE, BLINK_TOGGLE, SCROLL_STEP, DEMO_STEP (spec/44_blink_scroll_timer.md R200 to
R208). -/

namespace Sys2Proof.Machine

/-- `BLINK_TOGGLE()` (R203): on to off begins the off half; off to on completes one period. A finished blink is left on
(`BLINK_TERMINAL` = on, D14; notes/assumptions/11.md). -/
def blinkToggle (s : State) : State :=
  if s.blinkOn then ({ s with blinkOn := false } : State).markChanged
  else (countCycle { s with blinkOn := true }).markChanged

/-- `SCROLL_STEP()` (R205): a no-op unless the effect is scroll_left; the wrap test is on the incremented index. -/
def scrollStep (s : State) : State :=
  if s.effect = .scrollLeft then
    if s.textLen < s.visibleIdx + 1 + windowWidth s then countCycle ({ s with visibleIdx := 0 } : State).markChanged
    else ({ s with visibleIdx := s.visibleIdx + 1 } : State).markChanged
  else s

/-- `DEMO_STEP()` (R207): SCROLL_STEP over the 95 characters of the font with the whole display as window. -/
def demoStep (s : State) : State :=
  if 95 < s.demoIdx.toNat + 1 + s.ndig.toNat then countDemoCycle ({ s with demoIdx := 0 } : State).markChanged
  else ({ s with demoIdx := s.demoIdx + 1 } : State).markChanged

/-- One tick of `eff_timer` towards an interval of `period` ticks (R200): `eff_timer` is incremented, or cleared on reaching the
interval. -/
def timerTick (period : Nat) (s : State) : State :=
  { s with effTimer := if period ≤ s.effTimer + 1 then 0 else s.effTimer + 1 }

/-- Whether this tick completes an interval of `period` ticks (R200). -/
def timerDue (period : Nat) (s : State) : Bool := decide (period ≤ s.effTimer + 1)

/-- `ADVANCE()` (R200). -/
def advance (s : State) : State :=
  match s.demoMode with
  | .scrollFont =>
    if timerDue s.cfg.scrollTicks s then demoStep (timerTick s.cfg.scrollTicks s) else timerTick s.cfg.scrollTicks s
  | .off =>
    match s.effect with
    | .blink =>
      if timerDue s.cfg.blinkHalfTicks s then blinkToggle (timerTick s.cfg.blinkHalfTicks s)
      else timerTick s.cfg.blinkHalfTicks s
    | .scrollLeft =>
      if timerDue s.cfg.scrollTicks s then scrollStep (timerTick s.cfg.scrollTicks s) else timerTick s.cfg.scrollTicks s
    | .none => { s with effTimer := 0 }

end Sys2Proof.Machine
end

