-- ==== Sys2Proof/Machine/Scheduler.lean ====
section
/-! DEFINITION. The refresh scheduler: one micro-step per state of the FSM (spec/43_refresh_scheduler_fsm.md R180 to R191). -/

namespace Sys2Proof.Machine

/-- An operation that can fault, as the outcome of a step. -/
def Result.ofExcept (r : Except Fault State) : Result :=
  match r with
  | .ok s => .next s
  | .error e => .fault e

/-- The IDLE micro-step (R182), enabled by a pending tick. With none pending the FSM waits (R180): nothing happens. -/
def microIdle (s : State) : Result := .next (if s.tickPending then enterPass s else s)

/-- The ADVANCE micro-step (R183). -/
def microAdvance (s : State) : Result := .next { advance s with fsm := .rebuild }

/-- The REBUILD micro-step (R185): the only place REBUILD is invoked under `MIDPASS_POLICY = hold`. -/
def microRebuild (s : State) : Result :=
  Result.ofExcept do
    let t ← if s.contentChanged then rebuild s else pure s
    pure { t with digitIdx := 0, fsm := .txLow }

/-- The TX_LOW micro-step (R186). -/
def microTxLow (s : State) : Result :=
  Result.ofExcept do
    let f ← frameRead s s.digitIdx.toNat
    pure { s.emit .loadLow with load := false, shreg := f, bitIdx := 23, fsm := .txShift }

/-- The TX_SHIFT micro-step (R187). `clk` carries one pulse and is back at its level when the step ends
(notes/assumptions/10.md). -/
def microTxShift (s : State) : Result :=
  let b := s.shreg.getLsbD s.bitIdx.toNat
  if s.bitIdx = 0 then .next { s.emit (.bit b) with din := b, fsm := .txHigh }
  else .next { s.emit (.bit b) with din := b, bitIdx := s.bitIdx - 1 }

/-- The TX_HIGH micro-step (R188). -/
def microTxHigh (s : State) : Result :=
  if s.digitIdx.toNat + 1 = s.ndig.toNat then .next (leavePass { s.emit .loadHigh with load := true })
  else .next { s.emit .loadHigh with load := true, digitIdx := s.digitIdx + 1, fsm := .txLow }

/-- The one enabled micro-step of the FSM (R180). -/
def microStep (s : State) : Result :=
  match s.fsm with
  | .idle => microIdle s
  | .advance => microAdvance s
  | .rebuild => microRebuild s
  | .txLow => microTxLow s
  | .txShift => microTxShift s
  | .txHigh => microTxHigh s

/-- The extra step of `MIDPASS_POLICY = mixed` (93 U2): between any `LoadHigh` and the next `LoadLow` of a pass, REBUILD if
`content_changed = 1`. Where it is not enabled nothing happens. -/
def midpassStep (s : State) : Result :=
  if s.cfg.midpass = .mixed ∧ s.fsm = .txLow ∧ 0 < s.digitIdx.toNat ∧ s.contentChanged then Result.ofExcept (rebuild s)
  else .next s

end Sys2Proof.Machine
end

