-- ==== Sys2Proof/Machine/Configuration.lean ====
section
/-! DEFINITION. The configuration command SETUP (spec/41_display_text_commands.md R121, R122). -/

namespace Sys2Proof.Machine

/-- `SETUP` (R121, R122): a valid map pair configures the block for good, anything else answers BAD_MAP and changes nothing. -/
def execSetup (a b : Byte) (pl : List Byte) (s : State) : Result :=
  if setupValid s a b pl then
    .next (State.respond
      { s with
        nseg := a.setWidth 5
        ndig := b.setWidth 5
        segMap := writeMap s.segMap 0 (pl.take a.toNat)
        posMap := writeMap s.posMap 0 (pl.drop a.toNat)
        configured := true
        contentChanged := true } .ok 0)
  else raiseStatus .badMap s

end Sys2Proof.Machine
end

