-- ==== Sys2Proof/Machine/DisplayText.lean ====
section
/-! DEFINITION. The commands on DisplayText: SET_TEXT, SET_TEXT_ALIGN, SET_TEXT_EFFECT, SCROLL_LEFT, PRINT
(spec/41_display_text_commands.md R125 to R141). -/

namespace Sys2Proof.Machine

/-- The writes of R126, shared by SET_TEXT and an accepted PRINT: the text cut to `TEXT_CAP` is stored from `TEXT[0]` on, in the
window `first..last`. -/
def placeText (first last : BitVec 5) (txt : List Byte) (s : State) : State :=
  { s with
    text := writeBytes s.text 0 (storedText s txt)
    textLen := (storedText s txt).length
    startPos := first
    maxPos := last
    visibleIdx := 0
    visibleLen := min (storedText s txt).length (last.toNat - first.toNat + 1)
    contentChanged := true }

/-- `SET_TEXT` (R125, R126). -/
def execSetText (a b : Byte) (txt : List Byte) (s : State) : Result :=
  if windowValid s a.toNat b.toNat then .next ((placeText (a.setWidth 5) (b.setWidth 5) txt s).respond .ok 0)
  else raiseStatus .outOfRange s

/-- `SET_TEXT_ALIGN` (R131): under scroll_left the alignment is stored and the cursor is left alone. -/
def execSetTextAlign (a : Align) (s : State) : Result :=
  .next (State.respond
    { s with
      align := a
      visibleIdx := if s.effect = .scrollLeft then s.visibleIdx else alignedIdx s a
      contentChanged := true } .ok 0)

/-- `SET_TEXT_EFFECT` (R134): the effect starts in the on phase, a whole interval ahead, its count reloaded. -/
def execSetTextEffect (e : Effect) (cycles : Byte) (s : State) : Result :=
  .next (State.respond
    { s with
      effect := e
      cycleNum := cycles
      cyclesLeft := cycles
      blinkOn := true
      effTimer := 0
      visibleIdx := if e = .scrollLeft then 0 else s.visibleIdx
      contentChanged := true } .ok 0)

/-- `SCROLL_LEFT` (R137): one SCROLL_STEP, which leaves `eff_timer` alone. -/
def execScrollLeft (s : State) : Result := .next ((scrollStep s).respond .ok 0)

/-- `PRINT` (R141): ignored while the demo runs, before its window is looked at (R222); otherwise the text is placed from
`position` to the last digit. -/
def execPrint (position : Byte) (txt : List Byte) (s : State) : Result :=
  if s.demoMode = .scrollFont then .next (s.respond .ignored txt.length)
  else if windowValid s position.toNat (s.ndig.toNat - 1) then
    .next ((placeText (position.setWidth 5) (s.ndig - 1) txt s).respond .ok (storedText s txt).length)
  else raiseStatus .outOfRange s

end Sys2Proof.Machine
end

