-- ==== Sys2Proof/Machine/ModeState.lean ====
section
/-! DEFINITION. The command on ModeState, SET_DEMO_MODE (spec/41_display_text_commands.md R139). -/

namespace Sys2Proof.Machine

/-- `SET_DEMO_MODE` (R139): DisplayText is not written. -/
def execSetDemoMode (m : DemoMode) (cycles : Byte) (s : State) : Result :=
  .next (State.respond
    { s with
      demoMode := m
      demoCycleNum := cycles
      demoCyclesLeft := cycles
      demoIdx := 0
      effTimer := 0
      contentChanged := true } .ok 0)

end Sys2Proof.Machine
end

