-- ==== Sys2Proof/Machine/Reserved.lean ====
section
/-! DEFINITION. The nine reserved opcodes (spec/30_encoding.md R85, spec/60_exceptions.md R221): no state changes and the answer
is BAD_CMD with count 0. Their payload is consumed by the port and discarded. -/

namespace Sys2Proof.Machine

/-- Reserved opcode 0x0 (R85). -/
def execReserved0 (s : State) : Result := raiseStatus .badCmd s

/-- Reserved opcode 0x8 (R85). -/
def execReserved8 (s : State) : Result := raiseStatus .badCmd s

/-- Reserved opcode 0x9 (R85). -/
def execReserved9 (s : State) : Result := raiseStatus .badCmd s

/-- Reserved opcode 0xA (R85). -/
def execReservedA (s : State) : Result := raiseStatus .badCmd s

/-- Reserved opcode 0xB (R85). -/
def execReservedB (s : State) : Result := raiseStatus .badCmd s

/-- Reserved opcode 0xC (R85). -/
def execReservedC (s : State) : Result := raiseStatus .badCmd s

/-- Reserved opcode 0xD (R85). -/
def execReservedD (s : State) : Result := raiseStatus .badCmd s

/-- Reserved opcode 0xE (R85). -/
def execReservedE (s : State) : Result := raiseStatus .badCmd s

/-- Reserved opcode 0xF (R85). -/
def execReservedF (s : State) : Result := raiseStatus .badCmd s

end Sys2Proof.Machine
end

