-- ==== Sys2Proof/Machine/Dispatch.lean ====
section
/-! DEFINITION. The meaning of every command, one arm per constructor of `Instr`. -/

namespace Sys2Proof.Machine

/-- The command step (spec/41_display_text_commands.md R120): one whole command, atomically, in any state of the refresh FSM. -/
def exec (i : Instr) (s : State) : Host.Outcome State Fault Refusal :=
  match i with
  | .setup a b pl => Sys2Proof.Machine.execSetup a b pl s
  | .setText a b txt => Sys2Proof.Machine.execSetText a b txt s
  | .setTextAlign al => Sys2Proof.Machine.execSetTextAlign al s
  | .setTextEffect e c => Sys2Proof.Machine.execSetTextEffect e c s
  | .scrollLeft => Sys2Proof.Machine.execScrollLeft s
  | .setDemoMode m c => Sys2Proof.Machine.execSetDemoMode m c s
  | .print p txt => Sys2Proof.Machine.execPrint p txt s
  | .reserved0 => Sys2Proof.Machine.execReserved0 s
  | .reserved8 => Sys2Proof.Machine.execReserved8 s
  | .reserved9 => Sys2Proof.Machine.execReserved9 s
  | .reservedA => Sys2Proof.Machine.execReservedA s
  | .reservedB => Sys2Proof.Machine.execReservedB s
  | .reservedC => Sys2Proof.Machine.execReservedC s
  | .reservedD => Sys2Proof.Machine.execReservedD s
  | .reservedE => Sys2Proof.Machine.execReservedE s
  | .reservedF => Sys2Proof.Machine.execReservedF s

end Sys2Proof.Machine
end

