-- ==== Sys2Proof/Machine/Brightness.lean ====
section
/-! DEFINITION. The adjacent BrightnessController (spec/60_exceptions.md R240 to R245). It shares no state with the block; its
number format is DESIGN CHOICE, an exact fraction (notes/assumptions/8.md). -/

namespace Sys2Proof.Machine

/-- The fraction clamped to [0, 1] (R242). -/
def Fraction.clamp (f : Fraction) : Fraction :=
  if f.num ≤ 0 then ⟨0, 0⟩ else if (f.denPred : Int) + 1 ≤ f.num then ⟨1, 0⟩ else f

/-- Whether two fractions are the same number. -/
def Fraction.same (f g : Fraction) : Bool := decide (f.num * (g.denPred + 1) = g.num * (f.denPred + 1))

/-- `round(fraction * max_duty)` of a clamped fraction, halves away from zero (R242, D31). -/
def dutyOf (f : Fraction) (maxDuty : Nat) : Nat := (2 * f.num.toNat * maxDuty + (f.denPred + 1)) / (2 * (f.denPred + 1))

/-- `configure` (R241) with the answer of the PWM collaborator: 0 is a failure, after which the blanking pin is held at
display-enabled permanently (R244), so a later call changes nothing. DESIGN CHOICE (unsafe; notes/assumptions/22.md): a `configure`
sets the resolution and the maximum duty only and leaves the fraction, the applied fraction, the duty and the dirty flag as they are,
so that the applied fraction is skipped afterwards and keeps its old duty; the spec is silent on a `configure` after
`set_brightness` and on a second one. -/
def configurePwm (resolutionBits answer : Nat) (b : Brightness) : Brightness :=
  if b.pwmFailed then b
  else { b with resolutionBits := resolutionBits, maxDuty := answer, pwmFailed := decide (answer = 0) }

/-- `set_brightness` (R242, R243): a no-op after a PWM failure (R244); skipped if the clamped fraction is the applied one,
except 0; otherwise the fraction is set and its duty waits to be written. DESIGN CHOICE (unsafe; notes/assumptions/23.md): the call
is skipped whole even while another fraction is pending, which is kept and written later, so that the newer request is lost; R243 is
silent on a pending fraction. -/
def setBrightness (f : Fraction) (b : Brightness) : Brightness :=
  if b.pwmFailed then b
  else if f.clamp.same b.applied && !decide (f.clamp.num = 0) then b
  else { b with fraction := f.clamp, dirty := true }

/-- The pending duty is written to the PWM and the dirty flag cleared (R243). DESIGN CHOICE (unsafe; notes/assumptions/22.md): the
duty is computed here, from the maximum duty held now, so that a `configure` between a `set_brightness` and this write decides what
the pending fraction is rounded with; the spec does not say. DESIGN CHOICE (unsafe; notes/assumptions/23.md): after
a PWM failure a pending duty stays pending. -/
def writeDuty (b : Brightness) : Brightness :=
  if b.dirty && !b.pwmFailed then { b with duty := dutyOf b.fraction b.maxDuty, applied := b.fraction, dirty := false } else b

/-- How many counts of the PWM period the active-high blanking line is asserted (R242, C11): none after a PWM failure (R244).
DESIGN CHOICE (unsafe; notes/assumptions/22.md): none either where a second `configure` has left a duty above the maximum duty, for
which the spec states no meaning. -/
def blankedCounts (b : Brightness) : Nat := if b.pwmFailed then 0 else b.maxDuty - b.duty

end Sys2Proof.Machine
end

