-- ==== Sys2Proof/Machine/Observe.lean ====
section
/-! DEFINITION. What the display shows (spec/60_exceptions.md R238). -/

namespace Sys2Proof.Machine

/-- Segment index `seg` of digit position `p` is lit (R238). Whether the display is blanked at the moment is an input (R245). -/
def segmentLit (s : State) (seg p : Nat) (blanked : Bool) : Bool :=
  match posPin s p with
  | .ok pin => s.chipOut.getLsbD pin.toNat && s.chipOut.getLsbD (segPin s seg).toNat && !blanked
  | .error _ => false

end Sys2Proof.Machine
end

