-- ==== Sys2Proof/Machine/Port.lean ====
section
/-! DEFINITION. The command port (spec/30_encoding.md R80 to R82): how a header and its payload bytes become one command. -/

namespace Sys2Proof.Machine

/-- A command whose last word has arrived is decoded and performed as one atomic step (R80, R120); the port is idle again. -/
def performCommand (h : Word) (pl : List Byte) (s : State) : Result :=
  match decode h pl with
  | .ok (i, _) => exec i { s with port := .idle }
  | .error e => .refused (.undecodable e)

/-- A header arrives (R80): a command without payload is performed at once, otherwise the payload is awaited. A second command
before the response is refused (R62, 93 U4). -/
def takeHeader (h : Word) (s : State) : Result :=
  match s.port with
  | .receiving _ _ => .refused .headerDuringCommand
  | .idle => if hdrN h = 0 then performCommand h [] s else .next { s with port := .receiving h [] }

/-- A payload byte arrives (R80): the last of the `N` bytes performs the command. -/
def takePayload (b : Byte) (s : State) : Result :=
  match s.port with
  | .idle => .refused .payloadOutsideCommand
  | .receiving h got =>
    if got.length + 1 < hdrN h then .next { s with port := .receiving h (got ++ [b]) } else performCommand h (got ++ [b]) s

end Sys2Proof.Machine
end

