-- ==== Sys2Proof/Machine/Events.lean ====
section
/-! DEFINITION. The step relation of R58: what each kind of event does, and how the next one is chosen
(spec/20_memory.md R58, spec/60_exceptions.md R223, R226). -/

namespace Sys2Proof.Machine

/-- One event (R58, R223): a micro-step, a tick arrival, a reset, a word on the command port, or an event of the adjacent
BrightnessController. -/
def takeEvent (e : Event) (s : State) : Result :=
  match e with
  | .micro => microStep s
  | .tick => .next (tickArrival s)
  | .reset => .next (resetEvent s)
  | .header h => takeHeader h s
  | .payload b => takePayload b s
  | .midpassRebuild => midpassStep s
  | .configurePwm bits answer => .next { s with bright := configurePwm bits answer s.bright }
  | .setBrightness f => .next { s with bright := setBrightness f s.bright }
  | .writeDuty => .next { s with bright := writeDuty s.bright }

/-- The next step: the first of the events the environment has ordered (R226), or, with none waiting, the FSM's micro-step
(R180). -/
def nextStep (s : State) : Result :=
  match s.events with
  | [] => microStep s
  | e :: rest => takeEvent e { s with events := rest }

/-- The command whose header is `h` and whose payload is `pl`, put where the next step takes it: all of it but its last word has
arrived, and that word is the next event. -/
def presentCommand (h : Word) (pl : List Byte) (s : State) : State :=
  match pl.getLast? with
  | none => { s with port := .idle, events := .header h :: s.events }
  | some b => { s with port := .receiving h pl.dropLast, events := .payload b :: s.events }

end Sys2Proof.Machine
end

