-- ==== Sys2Proof/Machine/Step.lean ====
section
/-! DEFINITION. One step of the machine, and the placing of a command where the next step runs it. -/

namespace Sys2Proof.Machine

/-- One step (spec/20_memory.md R58). -/
def step (s : State) : Host.Outcome State Fault Refusal := nextStep s

/-- `s` with the command of the bits `w` as the very next thing the command port completes (R80). The block runs no program: the
host presents each command from outside, and this stands for that (notes/assumptions/9.md). -/
def State.withFetchWord (s : State) (nbits w : Nat) : State :=
  presentCommand (tableHeader nbits w) (tablePayload nbits w (hdrN (tableHeader nbits w))) s

end Sys2Proof.Machine
end

