-- ==== Sys2Proof/Machine/Assembler.lean ====
section
/-! DEFINITION. The assembler's commands and pseudo-commands (spec/30_encoding.md R86, R87), over operands already split into
tokens; the splitting of a line's characters is host software (spec/00_scope.md R4). -/

namespace Sys2Proof.Machine

/-- An operand of an assembler line (R86): a number, a symbolic name, a quoted text as its bytes, or a bracketed list of pins. -/
inductive AsmOperand where
  | number (n : Nat)
  | name (cs : List Char)
  | text (bytes : List Byte)
  | pins (l : List Nat)
deriving DecidableEq, Repr

/-- A name as the assembler compares it: without regard to case (R86, D32). -/
def foldName (cs : List Char) : List Char := cs.map Char.toLower

/-- An alignment's name; a name that is not recognised is the default `left` (R86). -/
def alignNamed (cs : List Char) : Align :=
  if foldName cs = ['c', 'e', 'n', 't', 'e', 'r'] then .center
  else if foldName cs = ['r', 'i', 'g', 'h', 't'] then .right
  else .left

/-- An effect's name; a name that is not recognised, `scroll-left` among them (C9), is the default `none` (R86). -/
def effectNamed (cs : List Char) : Effect :=
  if foldName cs = ['b', 'l', 'i', 'n', 'k'] then .blink
  else if foldName cs = ['s', 'c', 'r', 'o', 'l', 'l', '_', 'l', 'e', 'f', 't'] then .scrollLeft
  else .none

/-- A demo mode's name; a name that is not recognised, `scroll-font` among them (C9), is the default `off` (R86). -/
def demoModeNamed (cs : List Char) : DemoMode :=
  if foldName cs = ['s', 'c', 'r', 'o', 'l', 'l', '_', 'f', 'o', 'n', 't'] then .scrollFont else .off

/-- An assembler line as a command (R86): the mnemonic of R83 and its operands in order. A number must fit its field. -/
def assemble (mnemonic : String) (ops : List AsmOperand) : Option Instr :=
  if mnemonic = "SETUP" then
    match ops with
    | [.pins sl, .pins pl] =>
      if sl.length < 256 ∧ pl.length < 256 ∧ ∀ x ∈ sl ++ pl, x < 256 then
        some (.setup (BitVec.ofNat 8 sl.length) (BitVec.ofNat 8 pl.length) ((sl ++ pl).map (BitVec.ofNat 8)))
      else none
    | _ => none
  else if mnemonic = "SET_TEXT" then
    match ops with
    | [.number a, .number b, .text l] =>
      if a < 256 ∧ b < 256 ∧ l.length < 4096 then some (.setText (BitVec.ofNat 8 a) (BitVec.ofNat 8 b) l) else none
    | _ => none
  else if mnemonic = "SET_TEXT_ALIGN" then
    match ops with
    | [.name n] => some (.setTextAlign (alignNamed n))
    | _ => none
  else if mnemonic = "SET_TEXT_EFFECT" then
    match ops with
    | [.name n, .number c] => if c < 256 then some (.setTextEffect (effectNamed n) (BitVec.ofNat 8 c)) else none
    | _ => none
  else if mnemonic = "SCROLL_LEFT" then
    match ops with
    | [] => some .scrollLeft
    | _ => none
  else if mnemonic = "SET_DEMO_MODE" then
    match ops with
    | [.name n, .number c] => if c < 256 then some (.setDemoMode (demoModeNamed n) (BitVec.ofNat 8 c)) else none
    | _ => none
  else if mnemonic = "PRINT" then
    match ops with
    | [.number p, .text l] => if p < 256 ∧ l.length < 4096 then some (.print (BitVec.ofNat 8 p) l) else none
    | _ => none
  else none

/-- A command as events of the command port (R80): its header, then its payload bytes. -/
def commandEvents (i : Instr) : List Event := .header (encode i).1 :: (encode i).2.map .payload

/-- The micro-steps of the pass that a tick in IDLE starts (R192), or the one that drops it before SETUP (R182). -/
def passLength (s : State) : Nat := if s.configured then 3 + 26 * s.ndig.toNat else 1

/-- The pseudo-command `TICK n` (R87): `n` times a tick arrival followed by the whole pass, with no command in between. -/
def tickEvents (s : State) (n : Nat) : List Event :=
  (List.replicate n (Event.tick :: List.replicate (passLength s) .micro)).flatten

/-- The pseudo-command `RESET` (R87). -/
def resetEvents : List Event := [.reset]

end Sys2Proof.Machine
end

