-- ==== Sys2Proof/Safety.lean ====
section
/-! DEFINITION. What a safe state of the block is: the invariants the spec states (spec/10_state.md R13 to R31,
spec/42_digit_position_multiplexer.md R168, spec/44_blink_scroll_timer.md R208), in the terms the claims use. -/

namespace Sys2Proof.Machine

/-- The valid entries of both maps, SegmentMap first. -/
def validPins (s : State) : List Pin :=
  (s.segMap.toList.take s.nseg.toNat) ++ (s.posMap.toList.take s.ndig.toNat)

/-- `SEGPINS`: the pins of the valid SegmentMap entries (R107 (a)). -/
def isSegPin (s : State) (j : Nat) : Prop := ∃ i, i < s.nseg.toNat ∧ (segPin s i).toNat = j

/-- The pins of the valid PositionMap entries. -/
def isPosPin (s : State) (j : Nat) : Prop := ∃ p pin, p < s.ndig.toNat ∧ posPin s p = .ok pin ∧ pin.toNat = j

/-- R15, R12, R13: at least one segment and one digit, at most 20 pins in all, and the valid entries of both maps are pairwise
distinct values in 0..19. -/
def MapsValid (s : State) : Prop :=
  1 ≤ s.nseg.toNat ∧ 1 ≤ s.ndig.toNat ∧ s.nseg.toNat + s.ndig.toNat ≤ 20 ∧ (∀ pin ∈ validPins s, pin.toNat ≤ 19) ∧
    (validPins s).Nodup

/-- R168 (a): the unused bits are 0, the position's own pin is set, no other PositionMap pin is, and every further set bit is a
SegmentMap pin. -/
def FrameShape (s : State) (p : Nat) (f : Frame) : Prop :=
  (∀ j, 20 ≤ j → f.getLsbD j = false) ∧ (∀ pin, posPin s p = .ok pin → f.getLsbD pin.toNat = true) ∧
    (∀ q pin, q < s.ndig.toNat → q ≠ p → posPin s q = .ok pin → f.getLsbD pin.toNat = false) ∧
    ∀ j, f.getLsbD j = true → (∃ pin, posPin s p = .ok pin ∧ pin.toNat = j) ∨ isSegPin s j

/-- Whether the FSM is in the transmission part of a pass (R186 to R188). -/
def Fsm.transmits (f : Fsm) : Prop := f = .txLow ∨ f = .txShift ∨ f = .txHigh

/-- Whether a frame is being shifted out: between a `LoadLow` and its `LoadHigh` (R186 to R188). -/
def Fsm.inFrame (f : Fsm) : Prop := f = .txShift ∨ f = .txHigh

/-- Whether the next step is the micro-step of the FSM (R58, R180), because no
event waits or because a micro-step is the first of them. -/
def microNext (s : State) : Prop := s.events = [] ∨ s.events.head? = some .micro

/-- `setup_valid` of R121, written out payload byte by payload byte. -/
def SetupAllowed (s : State) (a b : Byte) (pl : List Byte) : Prop :=
  s.configured = false ∧ pl.length = a.toNat + b.toNat ∧ 1 ≤ a.toNat ∧ 1 ≤ b.toNat ∧ a.toNat + b.toNat ≤ 20 ∧
    (∀ (j : Nat) (x : Byte), pl[j]? = some x → x.toNat ≤ 19) ∧ ∀ (j k : Nat) (x y : Byte), j < k → pl[j]? = some x → pl[k]? = some y → x ≠ y

/-- `window_valid(A, B)` of R125. -/
def WindowAllowed (s : State) (a b : Nat) : Prop :=
  s.configured = true ∧ a ≤ b ∧ b < s.ndig.toNat ∧ b ≤ s.cfg.textCap

/-- What R37 and R261 say of every register of the block after reset. `TEXT` holds nothing, so that a read of it faults. `FRAME` is
unspecified there; that its entries are 0 is the model's choice (notes/assumptions/5.md). -/
def AtReset (s : State) : Prop :=
  (s.configured = false ∧ s.nseg = 0 ∧ s.ndig = 0 ∧ s.segMap = Vector.replicate 20 0 ∧ s.posMap = Vector.replicate 20 0) ∧
  (s.textLen = 0 ∧ s.startPos = 0 ∧ s.maxPos = 0 ∧ s.align = .left ∧ s.effect = .none ∧ s.cycleNum = 0 ∧ s.visibleIdx = 0 ∧
    s.visibleLen = 0 ∧ s.contentChanged = false) ∧
  (s.demoMode = .off ∧ s.demoCycleNum = 0 ∧ s.demoIdx = 0 ∧ s.demoCyclesLeft = 0) ∧
  (s.blinkOn = true ∧ s.effTimer = 0 ∧ s.cyclesLeft = 0) ∧
  (s.fsm.code = 0 ∧ s.digitIdx = 0 ∧ s.bitIdx = 0 ∧ s.shreg = 0 ∧ s.tickPending = false) ∧
  (s.load = true ∧ s.din = false ∧ s.clk = false) ∧
  (∀ k, textRead s k = .error (.textUndefined k)) ∧ s.frame = Vector.replicate 20 0

/-- What REBUILD needs of DisplayText (R23, R52): the visible substring lies in the text, and every character of the text is
stored. -/
def TextReadable (s : State) : Prop :=
  s.visibleIdx + s.visibleLen ≤ s.textLen ∧ ∀ k, k < s.textLen → (cellRead s.text k).isSome

/-- While the dirty flag is clear the frame buffer holds what REBUILD would write (R61, R166). -/
def FramesFresh (s : State) : Prop :=
  s.configured = true → s.contentChanged = false → rebuild s = .ok s

/-- The events of one transmission of the frame `f` (R54, R189): `LoadLow`, the 24 bits most significant first, `LoadHigh`. -/
def frameEvents (f : Frame) : List SerialEvent :=
  .loadLow :: ((List.range 24).map fun i => .bit (f.getLsbD (23 - i))) ++ [.loadHigh]

/-- Reads a serial trace against R190 (a). `none` as the reading state stands for "no transmission open", `some k` for one with
`k` bits sent; the answer is `none` where the trace breaks the rule. -/
def scanTrace (open? : Option Nat) (l : List SerialEvent) : Option (Option Nat) :=
  match l with
  | [] => some open?
  | .loadLow :: t => if open? = none then scanTrace (some 0) t else none
  | .bit _ :: t =>
    match open? with
    | none => none
    | some k => if k < 24 then scanTrace (some (k + 1)) t else none
  | .loadHigh :: t => if open? = some 24 then scanTrace none t else none

/-- The transmission that the FSM's registers say is open: none outside TX_SHIFT and TX_HIGH, else the bits already sent. -/
def openTransmission (s : State) : Option Nat :=
  match s.fsm with
  | .txShift => some (23 - s.bitIdx.toNat)
  | .txHigh => some 24
  | .idle | .advance | .rebuild | .txLow => none

/-- The invariants of the block. -/
structure BlockInv (s : State) : Prop where
  /-- The text buffer keeps its canonical form. -/
  textWf : s.text.wf
  /-- R16: the text fits the buffer, and every character below `text_len` has been stored. -/
  textFits : s.textLen ≤ s.cfg.textCap
  textHeld : ∀ k, k < s.textLen → (cellRead s.text k).isSome
  textInBuffer : ∀ k c, cellRead s.text k = some c → k < s.cfg.textCap
  /-- R13, R15. -/
  maps : s.configured = true → MapsValid s
  /-- R12, R13, R15, R182: before SETUP there are no digits, no window but 0..0, and no pass. -/
  unconfigured : s.configured = false →
    s.nseg = 0 ∧ s.ndig = 0 ∧ s.startPos = 0 ∧ s.maxPos = 0 ∧ s.demoIdx = 0 ∧ s.fsm = .idle
  /-- R17. -/
  window : s.startPos.toNat ≤ s.maxPos.toNat
  windowOnDisplay : s.configured = true → s.maxPos.toNat < s.ndig.toNat
  /-- R23, R145. -/
  visibleLen : s.visibleLen = min s.textLen (windowWidth s)
  visible : s.visibleIdx + s.visibleLen ≤ s.textLen
  /-- R26: the blink phase is on whenever no blink runs. -/
  phase : s.effect ≠ .blink → s.blinkOn = true
  /-- R204 (c), R208: a counted effect that runs has cycles left. -/
  cycles : s.cycleNum ≠ 0 → s.effect ≠ .none → s.cyclesLeft ≠ 0 ∧ s.cyclesLeft.toNat ≤ s.cycleNum.toNat
  demoCycles : s.demoCycleNum ≠ 0 → s.demoMode = .scrollFont →
    s.demoCyclesLeft ≠ 0 ∧ s.demoCyclesLeft.toNat ≤ s.demoCycleNum.toNat
  /-- R165, R207: the demo's window stays inside the font. -/
  demoWindow : s.demoIdx.toNat + s.ndig.toNat ≤ 95
  /-- R208. -/
  timer : s.effTimer < max s.cfg.blinkHalfTicks s.cfg.scrollTicks
  /-- R31. -/
  digit : s.fsm.transmits → s.digitIdx.toNat < s.ndig.toNat
  bit : s.bitIdx.toNat ≤ 23
  /-- R31: `shreg` is the frame under transmission. -/
  shreg : s.fsm.inFrame → s.frame[s.digitIdx.toNat]? = some s.shreg
  /-- R190: the latch is low exactly while a frame is shifted. -/
  latch : s.load = false ↔ s.fsm.inFrame
  /-- R14, R168 (a), R185: once nothing waits to be rebuilt, and while frames are transmitted, every position has a frame that REBUILD
  has written, so that no rule reads an entry before that. -/
  framesShaped : s.configured = true → (s.contentChanged = false ∨ s.fsm.transmits) →
    ∀ p f, p < s.ndig.toNat → s.frame[p]? = some f → FrameShape s p f
  /-- The bits shifted so far are the frame's, and before `LoadHigh` all of it is in the chip. PRESUMED (R239), the model's choice
  for the chip's shift register between `LoadLow` and `LoadHigh` (notes/assumptions/7.md); it is what makes the outputs at `LoadHigh`
  those of R237. -/
  shifted : s.fsm = .txShift → ∀ i, i < 20 → i + s.bitIdx.toNat < 23 →
    s.chipSr.getLsbD i = s.shreg.getLsbD (s.bitIdx.toNat + 1 + i)
  shiftedAll : s.fsm = .txHigh → s.chipSr = s.shreg.setWidth 20
  /-- R80: the port waits for a byte only while some are missing. -/
  port : ∀ h got, s.port = .receiving h got → got.length < hdrN h

end Sys2Proof.Machine
end

