-- ==== Sys2Proof/Certificates/Slice0/Obligations.lean ====
section
/-! DEFINITION. The statements for the provers. Each docstring names the rules of spec/ it comes from. -/

open Sys2Proof Sys2Proof.Machine

/-! Encoding and the command port -/

/-- R81 to R83: every well-formed command is read back from its own header and payload, whatever bytes follow. -/
def Obligations.DecodeEncodeRoundTrip : Prop :=
  ∀ (i : Instr) (rest : List Byte), i.wf = true → decode (encode i).1 ((encode i).2 ++ rest) = .ok (i, rest)

/-- R79, R81, R83, R85: the command that each of the sixteen opcodes names, with its operands read from the header as numbers and
from the payload. Unused fields and the bits `A[7:2]` of an enumeration play no part, and an unnamed enumeration value is the
default. -/
def Obligations.HeaderDecodesByOpcodeMap : Prop :=
  ∀ (h : Word) (pl rest : List Byte) (op a b : Nat), pl.length = h.toNat % 4096 → op = h.toNat / 2 ^ 28 →
    a = h.toNat / 2 ^ 20 % 256 → b = h.toNat / 2 ^ 12 % 256 →
    ∃ i, decode h (pl ++ rest) = .ok (i, rest) ∧
      (op = 0x1 → i = .setup (BitVec.ofNat 8 a) (BitVec.ofNat 8 b) pl) ∧
      (op = 0x2 → i = .setText (BitVec.ofNat 8 a) (BitVec.ofNat 8 b) pl) ∧
      (op = 0x3 → i = .setTextAlign (if a % 4 = 1 then .center else if a % 4 = 2 then .right else .left)) ∧
      (op = 0x4 →
        i = .setTextEffect (if a % 4 = 1 then .blink else if a % 4 = 2 then .scrollLeft else .none) (BitVec.ofNat 8 b)) ∧
      (op = 0x5 → i = .scrollLeft) ∧
      (op = 0x6 → i = .setDemoMode (if a % 4 = 1 then .scrollFont else .off) (BitVec.ofNat 8 b)) ∧
      (op = 0x7 → i = .print (BitVec.ofNat 8 a) pl) ∧
      (op = 0x0 → i = .reserved0) ∧ (op = 0x8 → i = .reserved8) ∧ (op = 0x9 → i = .reserved9) ∧ (op = 0xA → i = .reservedA) ∧
      (op = 0xB → i = .reservedB) ∧ (op = 0xC → i = .reservedC) ∧ (op = 0xD → i = .reservedD) ∧ (op = 0xE → i = .reservedE) ∧
      (op = 0xF → i = .reservedF)

/-- R81 to R83, spec/95_test_vectors.md V2: one word of each family, written out from the spec's encoding. -/
def Obligations.DecodedWords : Prop :=
  decode 0x10301003 [0x01, 0x02, 0x03, 0x04] = .ok (.setup 3 1 [0x01, 0x02, 0x03], [0x04]) ∧
  decode 0x20003004 [0x31, 0x32, 0x2E, 0x35] = .ok (.setText 0 3 [0x31, 0x32, 0x2E, 0x35], []) ∧
  decode 0x30200000 [] = .ok (.setTextAlign .right, []) ∧
  decode 0x40102000 [] = .ok (.setTextEffect .blink 2, []) ∧
  decode 0x50000000 [] = .ok (.scrollLeft, []) ∧
  decode 0x60101000 [] = .ok (.setDemoMode .scrollFont 1, []) ∧
  decode 0x70200002 [0x48, 0x49] = .ok (.print 2 [0x48, 0x49], []) ∧
  decode 0x90102003 [0xAA, 0xBB, 0xCC] = .ok (.reserved9, [])

/-- R86: what a line of each mnemonic and operand list assembles to, with the operands in the order of the document's signature.
Names are compared without regard to case; a name that is not recognised, a hyphenated one among them (D32, C9), gives the default.
The bounds on numbers and lengths, and that whatever is assembled is a command the port can carry, are the model's choice (log
entry 17). -/
def Obligations.AssembledCommandsWellFormed : Prop :=
  (∀ sl pl : List Nat, sl.length < 256 → pl.length < 256 → (∀ x ∈ sl ++ pl, x < 256) →
    assemble "SETUP" [.pins sl, .pins pl] =
      some (.setup (BitVec.ofNat 8 sl.length) (BitVec.ofNat 8 pl.length) ((sl ++ pl).map (BitVec.ofNat 8)))) ∧
  (∀ (a b : Nat) (l : List Byte), a < 256 → b < 256 → l.length < 4096 →
    assemble "SET_TEXT" [.number a, .number b, .text l] = some (.setText (BitVec.ofNat 8 a) (BitVec.ofNat 8 b) l)) ∧
  (∀ n : List Char, ∃ al, assemble "SET_TEXT_ALIGN" [.name n] = some (.setTextAlign al) ∧
    (al = .center ↔ n.map Char.toLower = "center".toList) ∧ (al = .right ↔ n.map Char.toLower = "right".toList)) ∧
  (∀ (n : List Char) (c : Nat), c < 256 →
    ∃ e, assemble "SET_TEXT_EFFECT" [.name n, .number c] = some (.setTextEffect e (BitVec.ofNat 8 c)) ∧
      (e = .blink ↔ n.map Char.toLower = "blink".toList) ∧ (e = .scrollLeft ↔ n.map Char.toLower = "scroll_left".toList)) ∧
  assemble "SCROLL_LEFT" [] = some .scrollLeft ∧
  (∀ (n : List Char) (c : Nat), c < 256 →
    ∃ m, assemble "SET_DEMO_MODE" [.name n, .number c] = some (.setDemoMode m (BitVec.ofNat 8 c)) ∧
      (m = .scrollFont ↔ n.map Char.toLower = "scroll_font".toList)) ∧
  (∀ (p : Nat) (l : List Byte), p < 256 → l.length < 4096 →
    assemble "PRINT" [.number p, .text l] = some (.print (BitVec.ofNat 8 p) l)) ∧
  assemble "SET_TEXT_EFFECT" [.name "scroll-left".toList, .number 1] = some (.setTextEffect .none 1) ∧
  assemble "SET_DEMO_MODE" [.name "scroll-font".toList, .number 1] = some (.setDemoMode .off 1) ∧
  ∀ (mnemonic : String) (ops : List AsmOperand) (i : Instr), assemble mnemonic ops = some i → i.wf = true

/-- R80: with the port idle, a header and its `N` payload bytes, taken one by one, perform the decoded command as one atomic step
with the last of them; before that nothing but the port changes. -/
def Obligations.PortDeliversCommand : Prop :=
  ∀ (s : State) (h : Word) (pl : List Byte) (rest : List Event), s.port = .idle → pl.length = hdrN h →
    s.events = .header h :: (pl.map .payload ++ rest) →
    Host.Core.run Sys2Proof.core (pl.length + 1) s = exec (decodeCommand h pl) { s with events := rest } ∧
    ∀ n, 1 ≤ n → n ≤ pl.length →
      ∃ t, Host.Core.run Sys2Proof.core n s = .next t ∧ t = { s with port := t.port, events := t.events }

/-- R80, R120: the step that takes a command's last word is `exec` of the command that the decoder reads; the port is idle again
and the word is gone from the events. The third clause says the same of the host's `withFetchWord`. -/
def Obligations.StepRunsTheDecodedCommand : Prop :=
  (∀ (s : State) (h : Word) (got : List Byte) (b : Byte) (rest : List Event) (i : Instr), s.port = .receiving h got →
    s.events = .payload b :: rest → got.length + 1 = hdrN h → decode h (got ++ [b]) = .ok (i, []) →
    step s = exec i { s with port := .idle, events := rest }) ∧
  (∀ (s : State) (h : Word) (rest : List Event) (i : Instr), s.port = .idle → s.events = .header h :: rest → hdrN h = 0 →
    decode h [] = .ok (i, []) → step s = exec i { s with events := rest }) ∧
  ∀ (s : State) (nbits w : Nat) (i : Instr), decodeTableWord nbits w = some i →
    step (s.withFetchWord nbits w) = exec i { s with port := .idle }

/-- R62, 93 U4; the model's choice, log entry 13: the two ways a host can break the port's protocol are refused. -/
def Obligations.PortRefusesProtocolErrors : Prop :=
  (∀ (s : State) (h h' : Word) (got : List Byte) (rest : List Event), s.port = .receiving h got →
    s.events = .header h' :: rest → step s = .refused .headerDuringCommand) ∧
  ∀ (s : State) (b : Byte) (rest : List Event), s.port = .idle → s.events = .payload b :: rest →
    step s = .refused .payloadOutsideCommand

/-! Commands -/

/-- R120: every command, in every state of the refresh FSM, completes, answers exactly once, and touches none of the registers of
the FSM, the frames and the pins; with a status other than OK it writes nothing at all, and a status that is raised (all but OK and
IGNORED) carries the count 0. -/
def Obligations.CommandsAnswerOnce : Prop :=
  ∀ (i : Instr) (s : State), ∃ t w, exec i s = .next t ∧ t.responses = s.responses ++ [w] ∧
    (t.fsm = s.fsm ∧ t.digitIdx = s.digitIdx ∧ t.bitIdx = s.bitIdx ∧ t.shreg = s.shreg ∧ t.tickPending = s.tickPending) ∧
    (t.frame = s.frame ∧ t.load = s.load ∧ t.din = s.din ∧ t.clk = s.clk ∧ t.trace = s.trace) ∧
    (t.chipSr = s.chipSr ∧ t.chipOut = s.chipOut ∧ t.bright = s.bright ∧ t.cfg = s.cfg) ∧
    (t.port = s.port ∧ t.events = s.events ∧ t.freeCount = s.freeCount) ∧
    (w.extractLsb' 12 4 ≠ 0 → t = { s with responses := s.responses ++ [w] }) ∧
    (w.extractLsb' 12 4 ≠ 0 → w.extractLsb' 12 4 ≠ 3 → w.extractLsb' 0 12 = 0)

/-- R84, R221, R222: the response word of every command, as a status in bits 15:12 and a count in bits 11:0, and which statuses
each command can answer. -/
def Obligations.ResponseWords : Prop :=
  ∀ (i : Instr) (s t : State), i.wf = true → exec i s = .next t →
    ∃ status count : Nat, t.responses = s.responses ++ [BitVec.ofNat 32 (status * 2 ^ 12 + count)] ∧ count < 4096 ∧
      match i with
      | .setup _ _ _ => (status = 0 ∨ status = 2) ∧ count = 0
      | .setText _ _ _ => (status = 0 ∨ status = 1) ∧ count = 0
      | .setTextAlign _ | .setTextEffect _ _ | .scrollLeft | .setDemoMode _ _ => status = 0 ∧ count = 0
      | .print _ txt =>
        (status = 0 ∧ count = min txt.length s.cfg.textCap) ∨ (status = 1 ∧ count = 0) ∨ (status = 3 ∧ count = txt.length)
      | .reserved0 | .reserved8 | .reserved9 | .reservedA | .reservedB | .reservedC | .reservedD | .reservedE | .reservedF =>
        status = 4 ∧ count = 0

/-- R121, R122: a valid SETUP writes NSEG, NDIG and the entries of both maps that the payload names, sets `configured` and
`content_changed`, answers OK, and changes nothing else. -/
def Obligations.SetupAccepted : Prop :=
  ∀ (a b : Byte) (pl : List Byte) (s : State), SetupAllowed s a b pl →
    ∃ t, exec (.setup a b pl) s = .next t ∧ t.nseg.toNat = a.toNat ∧ t.ndig.toNat = b.toNat ∧
      (∀ (i : Nat) (x : Byte), i < a.toNat → pl[i]? = some x → t.segMap[i]? = some (x.extractLsb' 0 5)) ∧
      (∀ i : Nat, a.toNat ≤ i → t.segMap[i]? = s.segMap[i]?) ∧
      (∀ (p : Nat) (x : Byte), p < b.toNat → pl[a.toNat + p]? = some x → t.posMap[p]? = some (x.extractLsb' 0 5)) ∧
      (∀ p : Nat, b.toNat ≤ p → t.posMap[p]? = s.posMap[p]?) ∧ MapsValid t ∧
      t = { s with
        nseg := t.nseg
        ndig := t.ndig
        segMap := t.segMap
        posMap := t.posMap
        configured := true
        contentChanged := true
        responses := s.responses ++ [0x00000000] }

/-- R121: a SETUP that breaks one of the conditions, a second SETUP among them, answers BAD_MAP and writes nothing. -/
def Obligations.SetupRejected : Prop :=
  ∀ (a b : Byte) (pl : List Byte) (s : State), ¬SetupAllowed s a b pl →
    exec (.setup a b pl) s = .next { s with responses := s.responses ++ [0x00002000] }

/-- R125, R126: SET_TEXT in a valid window stores the first `TEXT_CAP` characters of the text at `TEXT[0]` on, changes no other
entry of the text buffer, sets length, window and visible substring, and writes nothing else. -/
def Obligations.SetTextAccepted : Prop :=
  ∀ (a b : Byte) (txt : List Byte) (s : State) (n : Nat), WindowAllowed s a.toNat b.toNat → n = min txt.length s.cfg.textCap →
    ∃ t, exec (.setText a b txt) s = .next t ∧
      (∀ (k : Nat) (c : Byte), k < n → txt[k]? = some c → textRead t k = .ok c) ∧
      (∀ k, n ≤ k → cellRead t.text k = cellRead s.text k) ∧ (s.text.wf → t.text.wf) ∧
      t.startPos.toNat = a.toNat ∧ t.maxPos.toNat = b.toNat ∧
      t = { s with
        text := t.text
        textLen := n
        startPos := t.startPos
        maxPos := t.maxPos
        visibleIdx := 0
        visibleLen := min n (b.toNat - a.toNat + 1)
        contentChanged := true
        responses := s.responses ++ [0x00000000] }

/-- R125: SET_TEXT with an invalid window answers OUT_OF_RANGE and writes nothing. -/
def Obligations.SetTextRejected : Prop :=
  ∀ (a b : Byte) (txt : List Byte) (s : State), ¬WindowAllowed s a.toNat b.toNat →
    exec (.setText a b txt) s = .next { s with responses := s.responses ++ [0x00001000] }

/-- R127, R131: SET_TEXT_ALIGN stores the alignment and, except under scroll_left, computes `visible_idx` from
`d = text_len - W` in the integers with a floored half for center. -/
def Obligations.SetTextAlignResult : Prop :=
  ∀ (al : Align) (s : State) (d : Int), s.startPos.toNat ≤ s.maxPos.toNat →
    d = (s.textLen : Int) - ((s.maxPos.toNat : Int) - s.startPos.toNat + 1) →
    ∃ t, exec (.setTextAlign al) s = .next t ∧
      t = { s with
        align := al
        visibleIdx := t.visibleIdx
        contentChanged := true
        responses := s.responses ++ [0x00000000] } ∧
      (s.effect = .scrollLeft → t.visibleIdx = s.visibleIdx) ∧
      (s.effect ≠ .scrollLeft →
        (al = .left → t.visibleIdx = 0) ∧ (al = .right → (t.visibleIdx : Int) = max 0 d) ∧
          (al = .center → (t.visibleIdx : Int) = max 0 (d.fdiv 2)))

/-- R132 (d): left, right, left on an unchanged text restores the `visible_idx` of the first left, which is 0. -/
def Obligations.AlignRoundTrip : Prop :=
  ∀ (s : State), s.effect ≠ .scrollLeft →
    ∃ t u v, exec (.setTextAlign .left) s = .next t ∧ exec (.setTextAlign .right) t = .next u ∧
      exec (.setTextAlign .left) u = .next v ∧ t.visibleIdx = 0 ∧ v = { t with responses := v.responses }

/-- R134: SET_TEXT_EFFECT stores the effect and its count, starts in the on phase a whole interval ahead, and for scroll_left sets
`visible_idx` to 0. -/
def Obligations.SetTextEffectResult : Prop :=
  ∀ (e : Effect) (c : Byte) (s : State), ∃ t, exec (.setTextEffect e c) s = .next t ∧
    (e = .scrollLeft → t.visibleIdx = 0) ∧ (e ≠ .scrollLeft → t.visibleIdx = s.visibleIdx) ∧
    t = { s with
      effect := e
      cycleNum := c
      cyclesLeft := c
      blinkOn := true
      effTimer := 0
      visibleIdx := t.visibleIdx
      contentChanged := true
      responses := s.responses ++ [0x00000000] }

/-- R205: SCROLL_STEP is a no-op unless the effect is scroll_left; it moves the window one character on, or wraps to 0 where the
window would pass the text's end; each wrap of a counted scroll is one cycle, and the last one ends the effect. -/
def Obligations.ScrollStepRule : Prop :=
  ∀ (s : State) (w : Nat), s.startPos.toNat ≤ s.maxPos.toNat → w = s.maxPos.toNat - s.startPos.toNat + 1 →
    (s.effect ≠ .scrollLeft → scrollStep s = s) ∧
    (s.effect = .scrollLeft → s.visibleIdx + 1 + w ≤ s.textLen →
      scrollStep s = { s with visibleIdx := s.visibleIdx + 1, contentChanged := true }) ∧
    (s.effect = .scrollLeft → s.textLen < s.visibleIdx + 1 + w → s.cycleNum = 0 →
      scrollStep s = { s with visibleIdx := 0, contentChanged := true }) ∧
    (s.effect = .scrollLeft → s.textLen < s.visibleIdx + 1 + w → s.cycleNum ≠ 0 → 2 ≤ s.cyclesLeft.toNat →
      scrollStep s = { s with visibleIdx := 0, cyclesLeft := s.cyclesLeft - 1, contentChanged := true }) ∧
    (s.effect = .scrollLeft → s.textLen < s.visibleIdx + 1 + w → s.cycleNum ≠ 0 → s.cyclesLeft.toNat = 1 →
      scrollStep s = { s with visibleIdx := 0, cyclesLeft := 0, effect := .none, contentChanged := true })

/-- R137: SCROLL_LEFT performs one SCROLL_STEP and answers OK; with another effect no register changes, and `eff_timer` never
does. -/
def Obligations.ScrollLeftResult : Prop :=
  ∀ s : State, ∃ t, exec .scrollLeft s = .next t ∧ t = { scrollStep s with responses := s.responses ++ [0x00000000] } ∧
    (s.effect ≠ .scrollLeft → t = { s with responses := s.responses ++ [0x00000000] }) ∧
    (s.effect = .scrollLeft → t.contentChanged = true) ∧ t.effTimer = s.effTimer

/-- R139: SET_DEMO_MODE stores the mode and its count, starts at the first character a whole interval ahead, and writes nothing of
DisplayText but the dirty flag. -/
def Obligations.SetDemoModeResult : Prop :=
  ∀ (m : DemoMode) (c : Byte) (s : State), exec (.setDemoMode m c) s = .next { s with
    demoMode := m
    demoCycleNum := c
    demoCyclesLeft := c
    demoIdx := 0
    effTimer := 0
    contentChanged := true
    responses := s.responses ++ [0x00000000] }

/-- R141: PRINT is ignored while the demo runs, before its position is looked at; otherwise it is rejected unless the window from
its position to the last digit is valid, and then places the text there as SET_TEXT would and answers the characters stored. -/
def Obligations.PrintResult : Prop :=
  ∀ (a : Byte) (txt : List Byte) (s : State) (n : Nat), txt.length ≤ 4095 → n = min txt.length s.cfg.textCap →
    (s.demoMode ≠ .off →
      exec (.print a txt) s = .next { s with responses := s.responses ++ [0x00003000 + BitVec.ofNat 32 txt.length] }) ∧
    (s.demoMode = .off → ¬WindowAllowed s a.toNat (s.ndig.toNat - 1) →
      exec (.print a txt) s = .next { s with responses := s.responses ++ [0x00001000] }) ∧
    (s.demoMode = .off → WindowAllowed s a.toNat (s.ndig.toNat - 1) →
      ∃ t, exec (.print a txt) s = .next t ∧
        (∀ (k : Nat) (c : Byte), k < n → txt[k]? = some c → textRead t k = .ok c) ∧
        (∀ k, n ≤ k → cellRead t.text k = cellRead s.text k) ∧ (s.text.wf → t.text.wf) ∧
        t.startPos.toNat = a.toNat ∧ t.maxPos.toNat = s.ndig.toNat - 1 ∧
        t = { s with
          text := t.text
          textLen := n
          startPos := t.startPos
          maxPos := t.maxPos
          visibleIdx := 0
          visibleLen := min n (s.ndig.toNat - 1 - a.toNat + 1)
          contentChanged := true
          responses := s.responses ++ [BitVec.ofNat 32 n] })

/-- R85: every reserved opcode answers BAD_CMD and changes no state. -/
def Obligations.ReservedAnswersBadCmd : Prop :=
  ∀ s t : State, t = { s with responses := s.responses ++ [0x00004000] } →
    exec .reserved0 s = .next t ∧ exec .reserved8 s = .next t ∧ exec .reserved9 s = .next t ∧ exec .reservedA s = .next t ∧
    exec .reservedB s = .next t ∧ exec .reservedC s = .next t ∧ exec .reservedD s = .next t ∧ exec .reservedE s = .next t ∧
    exec .reservedF s = .next t

/-! Reset -/

/-- R37, R261: the registers of the block at `State.reset`. R37 leaves FRAME unspecified; that its entries are 0 is the model's choice,
log entry 5 (93 U7). -/
def Obligations.ResetValues : Prop := AtReset State.reset

/-- R260, R261: the reset event, at any point, leaves every register of the block at its reset value, discards a command in
progress without a response, emits nothing, and resets neither the font nor the chip. After a reset that cut a transmission short
nothing is said of the chip's outputs. That the entries of FRAME are then 0 is the model's choice, log entry 5 (93 U7), and that it
leaves the adjacent BrightnessController alone, which shares no state with the block (R240), is its choice too, log entry 8. -/
def Obligations.ResetEventLeaves : Prop :=
  ∀ (s : State) (rest : List Event), s.events = .reset :: rest →
    ∃ t, step s = .next t ∧ AtReset t ∧ t.port = .idle ∧ t.responses = s.responses ∧ t.trace = s.trace ∧ t.cfg = s.cfg ∧
      t.chipSr = s.chipSr ∧ (s.load = true → t.chipOut = s.chipOut) ∧ t.bright = s.bright ∧ t.events = rest

/-! Font ROM and segment encoder -/

/-- R75, R102: GLYPH reads the ROM entry of a supported code and the blank glyph for every other. -/
def Obligations.GlyphLookup : Prop :=
  ∀ (s : State) (c : Byte),
    (0x20 ≤ c.toNat → c.toNat ≤ 0x7E → s.cfg.font[c.toNat - 0x20]? = some (glyph s c)) ∧
    (c.toNat < 0x20 ∨ 0x7E < c.toNat → s.cfg.font[0]? = some (glyph s c) ∧ glyph s c = 0)

/-- R105, R107 (b): IS_DP_ONLY compares the glyph with entry 14, and is true for the full stop and for no other of the 256
codes. -/
def Obligations.DpOnlyIsTheFullStop : Prop :=
  ∀ (s : State) (c : Byte),
    (isDpOnly s c = true ↔ s.cfg.font[14]? = some (glyph s c)) ∧ (isDpOnly s c = true ↔ c = 0x2E)

/-- R104, R107 (a): a pin is in ENCODE_PINS exactly when a lit segment index below both NSEG and GW is wired to it, so only pins
of the SegmentMap are; and with valid maps no select bit is. -/
def Obligations.EncodePinsBits : Prop :=
  ∀ (s : State) (c : Byte) (j : Nat),
    ((encodePins s c).getLsbD j = true ↔ j < 20 ∧ ∃ (i : Nat) (pin : Pin), i < s.nseg.toNat ∧ i < s.cfg.gw ∧
      (glyph s c).getLsbD i = true ∧ s.segMap[i]? = some pin ∧ pin.toNat = j) ∧
    (MapsValid s → isPosPin s j → (encodePins s c).getLsbD j = false)

/-! Digit position multiplexer -/

/-- R160 to R165: the walk of REBUILD. Some cursor runs over the visible substring of the text, or of the font sequence in demo
mode; each position of the window takes the character at the cursor, or a plain character with the decimal point after it; every
other position, and every position past the substring's end, gets its select bit alone, as all do in the off half of a blink. -/
def Obligations.RebuildWalk : Prop :=
  ∀ (s : State) (lo hi start stop : Nat) (shown : Bool) (src : Nat → Byte), s.ndig.toNat ≤ 20 →
    (s.demoMode = .scrollFont ∧ lo = 0 ∧ hi = s.ndig.toNat - 1 ∧ start = s.demoIdx.toNat ∧
        stop = s.demoIdx.toNat + min (95 - s.demoIdx.toNat) s.ndig.toNat ∧ shown = true ∧
        (∀ k, src k = BitVec.ofNat 8 (0x20 + k)) ∨
      s.demoMode = .off ∧ lo = s.startPos.toNat ∧ hi = s.maxPos.toNat ∧ start = s.visibleIdx ∧
        stop = s.visibleIdx + s.visibleLen ∧ (shown = false ↔ s.effect = .blink ∧ s.blinkOn = false) ∧
        ∀ k, start ≤ k → k < stop → textRead s k = .ok (src k)) →
    ∃ (t : State) (cur : Nat → Nat), rebuild s = .ok t ∧ t = { s with frame := t.frame, contentChanged := false } ∧
      (∀ p, s.ndig.toNat ≤ p → t.frame[p]? = s.frame[p]?) ∧
      cur 0 = start ∧ (∀ p, p ≤ s.ndig.toNat → cur p ≤ stop) ∧
      ∀ (p : Nat) (pin : Pin), p < s.ndig.toNat → s.posMap[p]? = some pin →
        if lo ≤ p ∧ p ≤ hi ∧ cur p < stop then
          if isDpOnly s (src (cur p)) = false ∧ cur p + 1 < stop ∧ isDpOnly s (src (cur p + 1)) = true then
            cur (p + 1) = cur p + 2 ∧
              t.frame[p]? = some (1#24 <<< pin.toNat |||
                if shown then (encodePins s (src (cur p)) ||| encodePins s (src (cur p + 1))).setWidth 24 else 0)
          else
            cur (p + 1) = cur p + 1 ∧
              t.frame[p]? = some (1#24 <<< pin.toNat |||
                if shown then (encodePins s (src (cur p))).setWidth 24 else 0)
        else cur (p + 1) = cur p ∧ t.frame[p]? = some (1#24 <<< pin.toNat)

/-- R168 (a): after REBUILD every digit position has a frame of the right shape: unused bits 0, its own position pin and no other,
and otherwise SegmentMap pins only. -/
def Obligations.RebuildFrameShape : Prop :=
  ∀ s : State, MapsValid s → TextReadable s →
    ∃ t, rebuild s = .ok t ∧ ∀ p, p < s.ndig.toNat → ∃ f, t.frame[p]? = some f ∧ FrameShape s p f

/-- R164, R168 (d): in the off half of a blink every frame is the position's select bit alone. -/
def Obligations.RebuildBlinkOff : Prop :=
  ∀ s : State, s.ndig.toNat ≤ 20 → TextReadable s → s.demoMode = .off → s.effect = .blink → s.blinkOn = false →
    ∃ t, rebuild s = .ok t ∧
      ∀ (p : Nat) (pin : Pin), p < s.ndig.toNat → s.posMap[p]? = some pin → t.frame[p]? = some (1#24 <<< pin.toNat)

/-- R168 (e): a second REBUILD changes nothing. -/
def Obligations.RebuildIdempotent : Prop :=
  ∀ s t : State, rebuild s = .ok t → rebuild t = .ok t

/-! Blink and scroll timer -/

/-- R200: ADVANCE counts one tick towards the interval of whatever runs and performs its step when the interval is complete; with
nothing running the timer is held at 0. -/
def Obligations.AdvanceRule : Prop :=
  ∀ s : State,
    (s.demoMode = .scrollFont →
      (s.effTimer + 1 < s.cfg.scrollTicks → advance s = { s with effTimer := s.effTimer + 1 }) ∧
      (s.cfg.scrollTicks ≤ s.effTimer + 1 → advance s = demoStep { s with effTimer := 0 })) ∧
    (s.demoMode = .off → s.effect = .blink →
      (s.effTimer + 1 < s.cfg.blinkHalfTicks → advance s = { s with effTimer := s.effTimer + 1 }) ∧
      (s.cfg.blinkHalfTicks ≤ s.effTimer + 1 → advance s = blinkToggle { s with effTimer := 0 })) ∧
    (s.demoMode = .off → s.effect = .scrollLeft →
      (s.effTimer + 1 < s.cfg.scrollTicks → advance s = { s with effTimer := s.effTimer + 1 }) ∧
      (s.cfg.scrollTicks ≤ s.effTimer + 1 → advance s = scrollStep { s with effTimer := 0 })) ∧
    (s.demoMode = .off → s.effect = .none → advance s = { s with effTimer := 0 })

/-- R203: BLINK_TOGGLE changes the phase and marks the content changed; the end of an off half completes one period, counted down
for a counted blink, and the last one ends the effect with the text on. -/
def Obligations.BlinkToggleRule : Prop :=
  ∀ s : State,
    (s.blinkOn = true → blinkToggle s = { s with blinkOn := false, contentChanged := true }) ∧
    (s.blinkOn = false → s.cycleNum = 0 → blinkToggle s = { s with blinkOn := true, contentChanged := true }) ∧
    (s.blinkOn = false → s.cycleNum ≠ 0 → 2 ≤ s.cyclesLeft.toNat →
      blinkToggle s = { s with blinkOn := true, cyclesLeft := s.cyclesLeft - 1, contentChanged := true }) ∧
    (s.blinkOn = false → s.cycleNum ≠ 0 → s.cyclesLeft.toNat = 1 →
      blinkToggle s = { s with blinkOn := true, cyclesLeft := 0, effect := .none, contentChanged := true })

/-- R207: DEMO_STEP moves the font window one character on, or wraps to 0 where it would pass the last character; each wrap of a
counted demo is one cycle, and the last one ends the demo. -/
def Obligations.DemoStepRule : Prop :=
  ∀ s : State,
    (s.demoIdx.toNat + 1 + s.ndig.toNat ≤ 95 →
      ∃ t, demoStep s = t ∧ t.demoIdx.toNat = s.demoIdx.toNat + 1 ∧
        t = { s with demoIdx := t.demoIdx, contentChanged := true }) ∧
    (95 < s.demoIdx.toNat + 1 + s.ndig.toNat → s.demoCycleNum = 0 →
      demoStep s = { s with demoIdx := 0, contentChanged := true }) ∧
    (95 < s.demoIdx.toNat + 1 + s.ndig.toNat → s.demoCycleNum ≠ 0 → 2 ≤ s.demoCyclesLeft.toNat →
      demoStep s = { s with demoIdx := 0, demoCyclesLeft := s.demoCyclesLeft - 1, contentChanged := true }) ∧
    (95 < s.demoIdx.toNat + 1 + s.ndig.toNat → s.demoCycleNum ≠ 0 → s.demoCyclesLeft.toNat = 1 →
      demoStep s = { s with demoIdx := 0, demoCyclesLeft := 0, demoMode := .off, contentChanged := true })

/-- R201, R203, R204: from a SET_TEXT_EFFECT blink with count `c`, after `n` ticks of ADVANCE: a counted blink lasts exactly
`2 * c` half periods, alternating on and off, and ends on; an endless one goes on for ever. -/
def Obligations.BlinkTimeline : Prop :=
  ∀ (s t u : State) (c : Byte) (n half : Nat), s.demoMode = .off → half = s.cfg.blinkHalfTicks →
    exec (.setTextEffect .blink c) s = .next t → u = advance^[n] t →
    (c = 0 ∨ n < 2 * c.toNat * half →
      u.effect = .blink ∧ (u.blinkOn = true ↔ n / half % 2 = 0) ∧ u.cyclesLeft.toNat = c.toNat - n / (2 * half) ∧
        u.effTimer = n % half) ∧
    (c ≠ 0 → 2 * c.toNat * half ≤ n → u.effect = .none ∧ u.blinkOn = true ∧ u.cyclesLeft = 0 ∧ u.cycleNum = c)

/-- R201, R205, R206: from a SET_TEXT_EFFECT scroll_left with count `c`, after `n` ticks of ADVANCE: the cursor runs through
`0, 1, ..., text_len - W` once per `SCROLL_TICKS` ticks a place, over and over; a counted scroll ends after `c` such rounds, at
0. -/
def Obligations.ScrollTimeline : Prop :=
  ∀ (s t u : State) (c : Byte) (n ticks w period : Nat), s.demoMode = .off → s.startPos.toNat ≤ s.maxPos.toNat →
    ticks = s.cfg.scrollTicks → w = s.maxPos.toNat - s.startPos.toNat + 1 → period = s.textLen - w + 1 →
    exec (.setTextEffect .scrollLeft c) s = .next t → u = advance^[n] t →
    (c = 0 ∨ n < c.toNat * period * ticks →
      u.effect = .scrollLeft ∧ u.visibleIdx = n / ticks % period ∧ u.cyclesLeft.toNat = c.toNat - n / (period * ticks)) ∧
    (c ≠ 0 → c.toNat * period * ticks ≤ n → u.effect = .none ∧ u.visibleIdx = 0 ∧ u.cyclesLeft = 0)

/-- R200, R201, R207: from a SET_DEMO_MODE scroll_font with count `c`, after `n` ticks of ADVANCE: the font cursor runs through
`0, 1, ..., 95 - NDIG` over and over while DisplayText's effect stands still; a counted demo ends after `c` such rounds. -/
def Obligations.DemoTimeline : Prop :=
  ∀ (s t u : State) (c : Byte) (n ticks period : Nat), ticks = s.cfg.scrollTicks → period = 96 - s.ndig.toNat →
    exec (.setDemoMode .scrollFont c) s = .next t → u = advance^[n] t →
    (c = 0 ∨ n < c.toNat * period * ticks →
      u.demoMode = .scrollFont ∧ u.demoIdx.toNat = n / ticks % period ∧
        u.demoCyclesLeft.toNat = c.toNat - n / (period * ticks) ∧
        u.effect = s.effect ∧ u.blinkOn = s.blinkOn ∧ u.cyclesLeft = s.cyclesLeft ∧ u.visibleIdx = s.visibleIdx) ∧
    (c ≠ 0 → c.toNat * period * ticks ≤ n → u.demoMode = .off ∧ u.demoIdx = 0 ∧ u.demoCyclesLeft = 0)

/-! Refresh scheduler -/

/-- R181: a tick is remembered in every state of the FSM, and a second one is absorbed. -/
def Obligations.TickArrivalStep : Prop :=
  ∀ (s : State) (rest : List Event), s.events = .tick :: rest → step s = .next { s with tickPending := true, events := rest }

/-- R182, R227: the IDLE micro-step takes a pending tick, starting a pass only if the block is configured. Without a pending tick
R182 does not enable it; that a step then repeats the state is the model's choice, log entry 15. -/
def Obligations.IdleMicroStep : Prop :=
  ∀ s : State, microNext s → s.fsm = .idle →
    (s.tickPending = true → s.configured = true →
      step s = .next { s with tickPending := false, fsm := .advance, events := s.events.tail }) ∧
    (s.tickPending = true → s.configured = false →
      step s = .next { s with tickPending := false, fsm := .idle, events := s.events.tail }) ∧
    (s.tickPending = false → step s = .next { s with events := s.events.tail })

/-- R183: the ADVANCE micro-step performs ADVANCE and goes on to REBUILD. -/
def Obligations.AdvanceMicroStep : Prop :=
  ∀ s : State, microNext s → s.fsm = .advance →
    step s = .next { advance s with fsm := .rebuild, events := s.events.tail }

/-- R185: the REBUILD micro-step performs REBUILD exactly when the content has changed, and goes on to the first position. -/
def Obligations.RebuildMicroStep : Prop :=
  ∀ s : State, microNext s → s.fsm = .rebuild →
    (s.contentChanged = false → step s = .next { s with digitIdx := 0, fsm := .txLow, events := s.events.tail }) ∧
    ∀ u, s.contentChanged = true → rebuild s = .ok u →
      step s = .next { u with digitIdx := 0, fsm := .txLow, events := s.events.tail }

/-- R186: the TX_LOW micro-step lowers the latch line and copies the position's frame into `shreg`. -/
def Obligations.TxLowMicroStep : Prop :=
  ∀ (s : State) (f : Frame), microNext s → s.fsm = .txLow → s.frame[s.digitIdx.toNat]? = some f →
    step s = .next { s with
      load := false
      trace := s.trace ++ [.loadLow]
      shreg := f
      bitIdx := 23
      fsm := .txShift
      events := s.events.tail }

/-- R187: the TX_SHIFT micro-step sends the bit of `shreg` that `bit_idx` names; after bit 0 the frame is complete. Nothing is said
of the level of `clk` or of the inside of the chip. -/
def Obligations.TxShiftMicroStep : Prop :=
  ∀ (s : State) (b : Bool), microNext s → s.fsm = .txShift → b = s.shreg.getLsbD s.bitIdx.toNat →
    ∃ t, step s = .next t ∧ t.bitIdx.toNat = s.bitIdx.toNat - 1 ∧
      t.fsm = (if s.bitIdx.toNat = 0 then Fsm.txHigh else Fsm.txShift) ∧
      t = { s with
        din := b
        clk := t.clk
        trace := s.trace ++ [.bit b]
        bitIdx := t.bitIdx
        fsm := t.fsm
        chipSr := t.chipSr
        events := s.events.tail }

/-- R188, R228: the TX_HIGH micro-step raises the latch line and goes on to the next position, or ends the pass after the last. -/
def Obligations.TxHighMicroStep : Prop :=
  ∀ s : State, microNext s → s.fsm = .txHigh → s.digitIdx.toNat < s.ndig.toNat → s.ndig.toNat ≤ 20 →
    ∃ t, step s = .next t ∧
      (s.digitIdx.toNat = s.ndig.toNat - 1 → t.fsm = .idle ∧ t.digitIdx = s.digitIdx) ∧
      (s.digitIdx.toNat ≠ s.ndig.toNat - 1 → t.fsm = .txLow ∧ t.digitIdx.toNat = s.digitIdx.toNat + 1) ∧
      t = { s with
        load := true
        trace := s.trace ++ [.loadHigh]
        chipOut := t.chipOut
        digitIdx := t.digitIdx
        fsm := t.fsm
        events := s.events.tail }

/-- R189, R190, R237: the 26 micro-steps that transmit one frame `f`: `LoadLow`, its bits from 23 down to 0, `LoadHigh`. Until the
last of them the chip's outputs hold what they were; then they are bits 19:0 of `f`. Nothing is said of the level of `clk`. -/
def Obligations.FrameTransmission : Prop :=
  ∀ (s : State) (f : Frame), s.events = [] → s.fsm = .txLow → s.frame[s.digitIdx.toNat]? = some f →
    (∀ n, 1 ≤ n → n ≤ 25 →
      ∃ u : State, Host.Core.run Sys2Proof.core n s = .next u ∧ u.load = false ∧ u.chipOut = s.chipOut ∧ u.frame = s.frame) ∧
    ∃ t : State, Host.Core.run Sys2Proof.core 26 s = .next t ∧
      t = { s with
        trace := s.trace ++ frameEvents f
        load := true
        din := f.getLsbD 0
        clk := t.clk
        shreg := f
        bitIdx := 0
        chipSr := t.chipSr
        chipOut := f.extractLsb' 0 20
        digitIdx := if s.digitIdx.toNat + 1 = s.ndig.toNat then s.digitIdx else s.digitIdx + 1
        fsm := if s.digitIdx.toNat + 1 = s.ndig.toNat then .idle else .txLow }

/-- R59, R189, R192: a pass that no command disturbs takes `3 + 26 * NDIG` micro-steps from the IDLE micro-step that takes the tick
to the return to IDLE, and is nowhere in IDLE between. Its frames are those REBUILD makes of the state after the pass's ADVANCE, one
per position in order. Nothing is said of the level of `clk`. -/
def Obligations.WholePass : Prop :=
  ∀ s : State, BlockInv s → FramesFresh s → s.events = [] → s.fsm = .idle → s.tickPending = true → s.configured = true →
    ∃ (u t : State) (frames : List Frame), rebuild (advance s) = .ok u ∧ frames.length = s.ndig.toNat ∧
      (∀ (p : Nat) (f : Frame), frames[p]? = some f → u.frame[p]? = some f ∧ FrameShape s p f) ∧
      (∀ n, 1 ≤ n → n ≤ 2 + 26 * s.ndig.toNat →
        ∃ v : State, Host.Core.run Sys2Proof.core n s = .next v ∧ v.fsm ≠ .idle) ∧
      Host.Core.run Sys2Proof.core (3 + 26 * s.ndig.toNat) s = .next t ∧
      t.trace = s.trace ++ (frames.map frameEvents).flatten ∧ t.digitIdx.toNat = s.ndig.toNat - 1 ∧
      (∀ f, frames.getLast? = some f → t.chipOut = f.extractLsb' 0 20) ∧
      t = { u with
        tickPending := false
        fsm := .idle
        digitIdx := t.digitIdx
        bitIdx := t.bitIdx
        shreg := t.shreg
        load := true
        din := t.din
        clk := t.clk
        trace := t.trace
        chipSr := t.chipSr
        chipOut := t.chipOut }

/-- R14, R59 (b), R185: with `MIDPASS_POLICY = hold` no step but the REBUILD micro-step (and reset, which leaves the buffer
unspecified) changes a frame, so that no command and no tick disturbs the frames of a pass. -/
def Obligations.FramesHeldBetweenRebuilds : Prop :=
  ∀ s t : State, s.cfg.midpass = .hold → step s = .next t → s.events.head? ≠ some .reset →
    ¬(s.fsm = .rebuild ∧ microNext s ∧ s.contentChanged = true) → t.frame = s.frame

/-- R190 (d), R237: the chip's outputs change at the `LoadHigh` of a TX_HIGH micro-step and nowhere else, but for a reset. -/
def Obligations.OutputsChangeAtLoadHigh : Prop :=
  ∀ s t : State, step s = .next t → s.events.head? ≠ some .reset →
    t.chipOut = s.chipOut ∨
      s.fsm = .txHigh ∧ microNext s ∧ t.load = true ∧ t.trace = s.trace ++ [.loadHigh]

/-- R190 (a): the trace of the serial port is strictly alternating `LoadLow` and `LoadHigh` with exactly 24 bits between them, and
the FSM's registers say where in it the machine stands. Every step but a reset, which emits nothing, keeps that. -/
def Obligations.SerialTraceAlternates : Prop :=
  ∀ s t : State, BlockInv s → scanTrace none s.trace = some (openTransmission s) → step s = .next t →
    s.events.head? ≠ some .reset → scanTrace none t.trace = some (openTransmission t)

/-- 93 U2; the model's reading, log entry 20: the extra step of `MIDPASS_POLICY = mixed` rebuilds between the `LoadHigh` of one
position and the `LoadLow` of the next if the content has changed; under `hold` it does nothing. -/
def Obligations.MidpassPolicyStep : Prop :=
  ∀ (s : State) (rest : List Event), s.events = .midpassRebuild :: rest →
    (s.cfg.midpass = .hold → step s = .next { s with events := rest }) ∧
    ∀ u, s.cfg.midpass = .mixed → s.fsm = .txLow → 0 < s.digitIdx.toNat → s.contentChanged = true → rebuild s = .ok u →
      step s = .next { u with events := rest }

/-! The whole machine -/

/-- The invariants of the block (R13, R15, R16, R17, R23, R26, R31, R168, R190, R208) hold at reset. -/
def Obligations.InvariantsAtReset : Prop := BlockInv State.reset

/-- Every step keeps the invariants of the block, whatever command, tick, reset or micro-step it takes (R23, R58, R145, R206,
R208). Two of them, `shifted` and `shiftedAll`, speak of the chip's shift register between `LoadLow` and `LoadHigh`, which is the
model's choice, log entry 7 (R239). -/
def Obligations.InvariantsKept : Prop := ∀ s t : State, BlockInv s → step s = .next t → BlockInv t

/-- R180, R220: under the invariants every step completes, if only the host keeps the port's protocol: no trap exists, and no
micro-step can be stuck. That a step in IDLE with no tick pending, or one whose event
is not enabled, answers a next state is the model's choice, log entry 15. -/
def Obligations.StepsComplete : Prop :=
  ∀ s : State, BlockInv s → (∀ h rest, s.events = .header h :: rest → s.port = .idle) →
    (∀ b rest, s.events = .payload b :: rest → s.port ≠ .idle) → ∃ t, step s = .next t

/-- R22, R61, R166: while the dirty flag is clear the frame buffer holds what REBUILD would write, because every change of what
REBUILD reads sets the flag. Every step keeps that. -/
def Obligations.FramesFreshKept : Prop := ∀ s t : State, FramesFresh s → step s = .next t → FramesFresh t

/-- R11, R12, R13, R15: no step changes the font or a parameter; once the block is configured no step but a reset changes the maps
or the counts; and before that only the step that performs a valid SETUP does, for every other step but a reset leaves the block
unconfigured and all of them as they were. -/
def Obligations.ConfigurationImmutable : Prop :=
  ∀ s t : State, step s = .next t → t.cfg = s.cfg ∧
    (s.configured = true → s.events.head? ≠ some .reset →
      t.configured = true ∧ t.nseg = s.nseg ∧ t.ndig = s.ndig ∧ t.segMap = s.segMap ∧ t.posMap = s.posMap) ∧
    (s.configured = false → s.events.head? ≠ some .reset →
      (t.configured = false ∧ t.nseg = s.nseg ∧ t.ndig = s.ndig ∧ t.segMap = s.segMap ∧ t.posMap = s.posMap) ∨
        ∃ (a b : Byte) (pl : List Byte), SetupAllowed s a b pl ∧
          step s = exec (.setup a b pl) { s with port := .idle, events := s.events.tail })

/-- R52, 93 U7: a read of the text at or past its length faults, as R52 asks of a model, and below its length a read answers the
character stored there, or faults where none is (log entry 4). Each of the 20 entries of FRAME can be read in every state (log entry
5); that TX_LOW faults at an entry the file does not have, where no run comes, is the model's choice, log entry 18. -/
def Obligations.UnwrittenReadsFault : Prop :=
  (∀ (s : State) (k : Nat), s.textLen ≤ k → textRead s k = .error (.textUndefined k)) ∧
  (∀ (s : State) (k : Nat), cellRead s.text k = none → textRead s k = .error (.textUndefined k)) ∧
  (∀ (s : State) (k : Nat) (c : Byte), k < s.textLen → cellRead s.text k = some c → textRead s k = .ok c) ∧
  (∀ (s : State) (p : Nat), p < 20 → ∃ f, s.frame[p]? = some f ∧ frameRead s p = .ok f) ∧
  ∀ s : State, microNext s → s.fsm = .txLow → 20 ≤ s.digitIdx.toNat → step s = .fault (.noSuchPosition s.digitIdx.toNat)

/-! The devices at the edge -/

/-- R190 (b), R238: while the chip shows the frame of position `p`, a segment is lit at `p` alone, there exactly when the frame has
its pin, and nowhere while the display is blanked. -/
def Obligations.OneDigitLit : Prop :=
  ∀ (s : State) (f : Frame) (p q seg : Nat), MapsValid s → p < s.ndig.toNat → q < s.ndig.toNat → seg < s.nseg.toNat →
    FrameShape s p f → s.chipOut = f.extractLsb' 0 20 →
    (segmentLit s seg q false = true ↔ q = p ∧ f.getLsbD (segPin s seg).toNat = true) ∧ segmentLit s seg q true = false

/-- R242, R243; the number format and the separate write of the duty are the model's choice, log entry 8: a brightness that is 0 or
differs from the applied one is clamped, sets the dirty flag and waits; its duty, rounded half up, is written with the next write of
the duty, which clears the flag and makes the clamped brightness the applied one. The block itself is not touched (R245). -/
def Obligations.BrightnessDuty : Prop :=
  ∀ (s : State) (f : Fraction) (den : Int) (rest : List Event), s.events = .setBrightness f :: .writeDuty :: rest →
    s.bright.pwmFailed = false → den = f.denPred + 1 →
    (f.num ≤ 0 ∨ f.clamp.num * (s.bright.applied.denPred + 1) ≠ s.bright.applied.num * (f.clamp.denPred + 1)) →
    ∃ u t : State, step s = .next u ∧ u = { s with bright := u.bright, events := .writeDuty :: rest } ∧
      u.bright = { s.bright with fraction := f.clamp, dirty := true } ∧
      (f.num ≤ 0 → f.clamp.num = 0) ∧ (den ≤ f.num → f.clamp.num = f.clamp.denPred + 1) ∧ (0 < f.num → f.num < den → f.clamp = f) ∧
      step u = .next t ∧ t = { s with bright := t.bright, events := rest } ∧
      t.bright.fraction = f.clamp ∧ t.bright.applied = f.clamp ∧ t.bright.dirty = false ∧
      t.bright.maxDuty = s.bright.maxDuty ∧ t.bright.pwmFailed = false ∧
      (f.num ≤ 0 → t.bright.duty = 0) ∧ (den ≤ f.num → t.bright.duty = s.bright.maxDuty) ∧
      (0 ≤ f.num → f.num ≤ den →
        2 * den * t.bright.duty ≤ 2 * f.num * s.bright.maxDuty + den ∧
          2 * f.num * s.bright.maxDuty + den < 2 * den * (t.bright.duty + 1))

/-- R241, R243, R244; state and number format are the model's choice, log entry 8: an unchanged nonzero brightness is skipped; a
PWM that could not be provisioned makes every brightness call a no-op and never blanks the display. That the skipped call leaves a
pending brightness waiting, and that a PWM failure does, is the model's choice, log entry 23. A `configure` that succeeds sets the
resolution and makes the PWM's answer the maximum duty; that it leaves the brightness and the duty already held as they are is the
model's choice, log entry 22. -/
def Obligations.BrightnessSkipped : Prop :=
  (∀ (s : State) (f : Fraction) (rest : List Event), s.events = .setBrightness f :: rest → 0 < f.num →
    f.clamp.num * (s.bright.applied.denPred + 1) = s.bright.applied.num * (f.clamp.denPred + 1) →
    step s = .next { s with events := rest }) ∧
  (∀ (s : State) (e : Event) (rest : List Event), s.events = e :: rest → s.bright.pwmFailed = true →
    ((∃ f, e = .setBrightness f) ∨ (∃ r m, e = .configurePwm r m) ∨ e = .writeDuty) →
    step s = .next { s with events := rest } ∧ blankedCounts s.bright = 0) ∧
  (∀ (s : State) (r : Nat) (rest : List Event), s.events = .configurePwm r 0 :: rest →
    ∃ t, step s = .next t ∧ t.bright.pwmFailed = true ∧ t = { s with bright := t.bright, events := rest }) ∧
  ∀ (s : State) (r m : Nat) (rest : List Event), s.events = .configurePwm r m :: rest → s.bright.pwmFailed = false → m ≠ 0 →
    step s = .next { s with bright := { s.bright with resolutionBits := r, maxDuty := m }, events := rest }
end

