-- ==== Sys2Proof/Laws/State.lean ====
section
/-! SUPPORT. One lemma per field for each named update of the state, so that no proof unfolds a record update. -/

namespace Sys2Proof.Machine

variable (s : State)

/-! `State.respond` -/

@[simp] theorem respond_cfg (st : Status) (n : Nat) : (s.respond st n).cfg = s.cfg := rfl
@[simp] theorem respond_configured (st : Status) (n : Nat) : (s.respond st n).configured = s.configured := rfl
@[simp] theorem respond_nseg (st : Status) (n : Nat) : (s.respond st n).nseg = s.nseg := rfl
@[simp] theorem respond_ndig (st : Status) (n : Nat) : (s.respond st n).ndig = s.ndig := rfl
@[simp] theorem respond_segMap (st : Status) (n : Nat) : (s.respond st n).segMap = s.segMap := rfl
@[simp] theorem respond_posMap (st : Status) (n : Nat) : (s.respond st n).posMap = s.posMap := rfl
@[simp] theorem respond_text (st : Status) (n : Nat) : (s.respond st n).text = s.text := rfl
@[simp] theorem respond_textLen (st : Status) (n : Nat) : (s.respond st n).textLen = s.textLen := rfl
@[simp] theorem respond_startPos (st : Status) (n : Nat) : (s.respond st n).startPos = s.startPos := rfl
@[simp] theorem respond_maxPos (st : Status) (n : Nat) : (s.respond st n).maxPos = s.maxPos := rfl
@[simp] theorem respond_align (st : Status) (n : Nat) : (s.respond st n).align = s.align := rfl
@[simp] theorem respond_effect (st : Status) (n : Nat) : (s.respond st n).effect = s.effect := rfl
@[simp] theorem respond_cycleNum (st : Status) (n : Nat) : (s.respond st n).cycleNum = s.cycleNum := rfl
@[simp] theorem respond_visibleIdx (st : Status) (n : Nat) : (s.respond st n).visibleIdx = s.visibleIdx := rfl
@[simp] theorem respond_visibleLen (st : Status) (n : Nat) : (s.respond st n).visibleLen = s.visibleLen := rfl
@[simp] theorem respond_contentChanged (st : Status) (n : Nat) : (s.respond st n).contentChanged = s.contentChanged := rfl
@[simp] theorem respond_demoMode (st : Status) (n : Nat) : (s.respond st n).demoMode = s.demoMode := rfl
@[simp] theorem respond_demoCycleNum (st : Status) (n : Nat) : (s.respond st n).demoCycleNum = s.demoCycleNum := rfl
@[simp] theorem respond_demoIdx (st : Status) (n : Nat) : (s.respond st n).demoIdx = s.demoIdx := rfl
@[simp] theorem respond_demoCyclesLeft (st : Status) (n : Nat) : (s.respond st n).demoCyclesLeft = s.demoCyclesLeft := rfl
@[simp] theorem respond_blinkOn (st : Status) (n : Nat) : (s.respond st n).blinkOn = s.blinkOn := rfl
@[simp] theorem respond_effTimer (st : Status) (n : Nat) : (s.respond st n).effTimer = s.effTimer := rfl
@[simp] theorem respond_cyclesLeft (st : Status) (n : Nat) : (s.respond st n).cyclesLeft = s.cyclesLeft := rfl
@[simp] theorem respond_frame (st : Status) (n : Nat) : (s.respond st n).frame = s.frame := rfl
@[simp] theorem respond_fsm (st : Status) (n : Nat) : (s.respond st n).fsm = s.fsm := rfl
@[simp] theorem respond_digitIdx (st : Status) (n : Nat) : (s.respond st n).digitIdx = s.digitIdx := rfl
@[simp] theorem respond_bitIdx (st : Status) (n : Nat) : (s.respond st n).bitIdx = s.bitIdx := rfl
@[simp] theorem respond_shreg (st : Status) (n : Nat) : (s.respond st n).shreg = s.shreg := rfl
@[simp] theorem respond_tickPending (st : Status) (n : Nat) : (s.respond st n).tickPending = s.tickPending := rfl
@[simp] theorem respond_load (st : Status) (n : Nat) : (s.respond st n).load = s.load := rfl
@[simp] theorem respond_din (st : Status) (n : Nat) : (s.respond st n).din = s.din := rfl
@[simp] theorem respond_clk (st : Status) (n : Nat) : (s.respond st n).clk = s.clk := rfl
@[simp] theorem respond_chipSr (st : Status) (n : Nat) : (s.respond st n).chipSr = s.chipSr := rfl
@[simp] theorem respond_chipOut (st : Status) (n : Nat) : (s.respond st n).chipOut = s.chipOut := rfl
@[simp] theorem respond_bright (st : Status) (n : Nat) : (s.respond st n).bright = s.bright := rfl
@[simp] theorem respond_port (st : Status) (n : Nat) : (s.respond st n).port = s.port := rfl
@[simp] theorem respond_responses (st : Status) (n : Nat) : (s.respond st n).responses = s.responses ++ [responseWord st n] := rfl
@[simp] theorem respond_trace (st : Status) (n : Nat) : (s.respond st n).trace = s.trace := rfl
@[simp] theorem respond_events (st : Status) (n : Nat) : (s.respond st n).events = s.events := rfl
@[simp] theorem respond_freeCount (st : Status) (n : Nat) : (s.respond st n).freeCount = s.freeCount := rfl

/-! `State.emit` -/

@[simp] theorem emit_cfg (e : SerialEvent) : (s.emit e).cfg = s.cfg := rfl
@[simp] theorem emit_configured (e : SerialEvent) : (s.emit e).configured = s.configured := rfl
@[simp] theorem emit_nseg (e : SerialEvent) : (s.emit e).nseg = s.nseg := rfl
@[simp] theorem emit_ndig (e : SerialEvent) : (s.emit e).ndig = s.ndig := rfl
@[simp] theorem emit_segMap (e : SerialEvent) : (s.emit e).segMap = s.segMap := rfl
@[simp] theorem emit_posMap (e : SerialEvent) : (s.emit e).posMap = s.posMap := rfl
@[simp] theorem emit_text (e : SerialEvent) : (s.emit e).text = s.text := rfl
@[simp] theorem emit_textLen (e : SerialEvent) : (s.emit e).textLen = s.textLen := rfl
@[simp] theorem emit_startPos (e : SerialEvent) : (s.emit e).startPos = s.startPos := rfl
@[simp] theorem emit_maxPos (e : SerialEvent) : (s.emit e).maxPos = s.maxPos := rfl
@[simp] theorem emit_align (e : SerialEvent) : (s.emit e).align = s.align := rfl
@[simp] theorem emit_effect (e : SerialEvent) : (s.emit e).effect = s.effect := rfl
@[simp] theorem emit_cycleNum (e : SerialEvent) : (s.emit e).cycleNum = s.cycleNum := rfl
@[simp] theorem emit_visibleIdx (e : SerialEvent) : (s.emit e).visibleIdx = s.visibleIdx := rfl
@[simp] theorem emit_visibleLen (e : SerialEvent) : (s.emit e).visibleLen = s.visibleLen := rfl
@[simp] theorem emit_contentChanged (e : SerialEvent) : (s.emit e).contentChanged = s.contentChanged := rfl
@[simp] theorem emit_demoMode (e : SerialEvent) : (s.emit e).demoMode = s.demoMode := rfl
@[simp] theorem emit_demoCycleNum (e : SerialEvent) : (s.emit e).demoCycleNum = s.demoCycleNum := rfl
@[simp] theorem emit_demoIdx (e : SerialEvent) : (s.emit e).demoIdx = s.demoIdx := rfl
@[simp] theorem emit_demoCyclesLeft (e : SerialEvent) : (s.emit e).demoCyclesLeft = s.demoCyclesLeft := rfl
@[simp] theorem emit_blinkOn (e : SerialEvent) : (s.emit e).blinkOn = s.blinkOn := rfl
@[simp] theorem emit_effTimer (e : SerialEvent) : (s.emit e).effTimer = s.effTimer := rfl
@[simp] theorem emit_cyclesLeft (e : SerialEvent) : (s.emit e).cyclesLeft = s.cyclesLeft := rfl
@[simp] theorem emit_frame (e : SerialEvent) : (s.emit e).frame = s.frame := rfl
@[simp] theorem emit_fsm (e : SerialEvent) : (s.emit e).fsm = s.fsm := rfl
@[simp] theorem emit_digitIdx (e : SerialEvent) : (s.emit e).digitIdx = s.digitIdx := rfl
@[simp] theorem emit_bitIdx (e : SerialEvent) : (s.emit e).bitIdx = s.bitIdx := rfl
@[simp] theorem emit_shreg (e : SerialEvent) : (s.emit e).shreg = s.shreg := rfl
@[simp] theorem emit_tickPending (e : SerialEvent) : (s.emit e).tickPending = s.tickPending := rfl
@[simp] theorem emit_load (e : SerialEvent) : (s.emit e).load = s.load := rfl
@[simp] theorem emit_din (e : SerialEvent) : (s.emit e).din = s.din := rfl
@[simp] theorem emit_clk (e : SerialEvent) : (s.emit e).clk = s.clk := rfl
@[simp] theorem emit_chipSr (e : SerialEvent) : (s.emit e).chipSr = chipShift s.chipSr e := rfl
@[simp] theorem emit_chipOut (e : SerialEvent) : (s.emit e).chipOut = chipLatch s.chipSr s.chipOut e := rfl
@[simp] theorem emit_bright (e : SerialEvent) : (s.emit e).bright = s.bright := rfl
@[simp] theorem emit_port (e : SerialEvent) : (s.emit e).port = s.port := rfl
@[simp] theorem emit_responses (e : SerialEvent) : (s.emit e).responses = s.responses := rfl
@[simp] theorem emit_trace (e : SerialEvent) : (s.emit e).trace = s.trace ++ [e] := rfl
@[simp] theorem emit_events (e : SerialEvent) : (s.emit e).events = s.events := rfl
@[simp] theorem emit_freeCount (e : SerialEvent) : (s.emit e).freeCount = s.freeCount := rfl

/-! `State.markChanged` -/

@[simp] theorem markChanged_cfg : (s.markChanged).cfg = s.cfg := rfl
@[simp] theorem markChanged_configured : (s.markChanged).configured = s.configured := rfl
@[simp] theorem markChanged_nseg : (s.markChanged).nseg = s.nseg := rfl
@[simp] theorem markChanged_ndig : (s.markChanged).ndig = s.ndig := rfl
@[simp] theorem markChanged_segMap : (s.markChanged).segMap = s.segMap := rfl
@[simp] theorem markChanged_posMap : (s.markChanged).posMap = s.posMap := rfl
@[simp] theorem markChanged_text : (s.markChanged).text = s.text := rfl
@[simp] theorem markChanged_textLen : (s.markChanged).textLen = s.textLen := rfl
@[simp] theorem markChanged_startPos : (s.markChanged).startPos = s.startPos := rfl
@[simp] theorem markChanged_maxPos : (s.markChanged).maxPos = s.maxPos := rfl
@[simp] theorem markChanged_align : (s.markChanged).align = s.align := rfl
@[simp] theorem markChanged_effect : (s.markChanged).effect = s.effect := rfl
@[simp] theorem markChanged_cycleNum : (s.markChanged).cycleNum = s.cycleNum := rfl
@[simp] theorem markChanged_visibleIdx : (s.markChanged).visibleIdx = s.visibleIdx := rfl
@[simp] theorem markChanged_visibleLen : (s.markChanged).visibleLen = s.visibleLen := rfl
@[simp] theorem markChanged_contentChanged : (s.markChanged).contentChanged = true := rfl
@[simp] theorem markChanged_demoMode : (s.markChanged).demoMode = s.demoMode := rfl
@[simp] theorem markChanged_demoCycleNum : (s.markChanged).demoCycleNum = s.demoCycleNum := rfl
@[simp] theorem markChanged_demoIdx : (s.markChanged).demoIdx = s.demoIdx := rfl
@[simp] theorem markChanged_demoCyclesLeft : (s.markChanged).demoCyclesLeft = s.demoCyclesLeft := rfl
@[simp] theorem markChanged_blinkOn : (s.markChanged).blinkOn = s.blinkOn := rfl
@[simp] theorem markChanged_effTimer : (s.markChanged).effTimer = s.effTimer := rfl
@[simp] theorem markChanged_cyclesLeft : (s.markChanged).cyclesLeft = s.cyclesLeft := rfl
@[simp] theorem markChanged_frame : (s.markChanged).frame = s.frame := rfl
@[simp] theorem markChanged_fsm : (s.markChanged).fsm = s.fsm := rfl
@[simp] theorem markChanged_digitIdx : (s.markChanged).digitIdx = s.digitIdx := rfl
@[simp] theorem markChanged_bitIdx : (s.markChanged).bitIdx = s.bitIdx := rfl
@[simp] theorem markChanged_shreg : (s.markChanged).shreg = s.shreg := rfl
@[simp] theorem markChanged_tickPending : (s.markChanged).tickPending = s.tickPending := rfl
@[simp] theorem markChanged_load : (s.markChanged).load = s.load := rfl
@[simp] theorem markChanged_din : (s.markChanged).din = s.din := rfl
@[simp] theorem markChanged_clk : (s.markChanged).clk = s.clk := rfl
@[simp] theorem markChanged_chipSr : (s.markChanged).chipSr = s.chipSr := rfl
@[simp] theorem markChanged_chipOut : (s.markChanged).chipOut = s.chipOut := rfl
@[simp] theorem markChanged_bright : (s.markChanged).bright = s.bright := rfl
@[simp] theorem markChanged_port : (s.markChanged).port = s.port := rfl
@[simp] theorem markChanged_responses : (s.markChanged).responses = s.responses := rfl
@[simp] theorem markChanged_trace : (s.markChanged).trace = s.trace := rfl
@[simp] theorem markChanged_events : (s.markChanged).events = s.events := rfl
@[simp] theorem markChanged_freeCount : (s.markChanged).freeCount = s.freeCount := rfl

/-! `State.clearChanged` -/

@[simp] theorem clearChanged_cfg : (s.clearChanged).cfg = s.cfg := rfl
@[simp] theorem clearChanged_configured : (s.clearChanged).configured = s.configured := rfl
@[simp] theorem clearChanged_nseg : (s.clearChanged).nseg = s.nseg := rfl
@[simp] theorem clearChanged_ndig : (s.clearChanged).ndig = s.ndig := rfl
@[simp] theorem clearChanged_segMap : (s.clearChanged).segMap = s.segMap := rfl
@[simp] theorem clearChanged_posMap : (s.clearChanged).posMap = s.posMap := rfl
@[simp] theorem clearChanged_text : (s.clearChanged).text = s.text := rfl
@[simp] theorem clearChanged_textLen : (s.clearChanged).textLen = s.textLen := rfl
@[simp] theorem clearChanged_startPos : (s.clearChanged).startPos = s.startPos := rfl
@[simp] theorem clearChanged_maxPos : (s.clearChanged).maxPos = s.maxPos := rfl
@[simp] theorem clearChanged_align : (s.clearChanged).align = s.align := rfl
@[simp] theorem clearChanged_effect : (s.clearChanged).effect = s.effect := rfl
@[simp] theorem clearChanged_cycleNum : (s.clearChanged).cycleNum = s.cycleNum := rfl
@[simp] theorem clearChanged_visibleIdx : (s.clearChanged).visibleIdx = s.visibleIdx := rfl
@[simp] theorem clearChanged_visibleLen : (s.clearChanged).visibleLen = s.visibleLen := rfl
@[simp] theorem clearChanged_contentChanged : (s.clearChanged).contentChanged = false := rfl
@[simp] theorem clearChanged_demoMode : (s.clearChanged).demoMode = s.demoMode := rfl
@[simp] theorem clearChanged_demoCycleNum : (s.clearChanged).demoCycleNum = s.demoCycleNum := rfl
@[simp] theorem clearChanged_demoIdx : (s.clearChanged).demoIdx = s.demoIdx := rfl
@[simp] theorem clearChanged_demoCyclesLeft : (s.clearChanged).demoCyclesLeft = s.demoCyclesLeft := rfl
@[simp] theorem clearChanged_blinkOn : (s.clearChanged).blinkOn = s.blinkOn := rfl
@[simp] theorem clearChanged_effTimer : (s.clearChanged).effTimer = s.effTimer := rfl
@[simp] theorem clearChanged_cyclesLeft : (s.clearChanged).cyclesLeft = s.cyclesLeft := rfl
@[simp] theorem clearChanged_frame : (s.clearChanged).frame = s.frame := rfl
@[simp] theorem clearChanged_fsm : (s.clearChanged).fsm = s.fsm := rfl
@[simp] theorem clearChanged_digitIdx : (s.clearChanged).digitIdx = s.digitIdx := rfl
@[simp] theorem clearChanged_bitIdx : (s.clearChanged).bitIdx = s.bitIdx := rfl
@[simp] theorem clearChanged_shreg : (s.clearChanged).shreg = s.shreg := rfl
@[simp] theorem clearChanged_tickPending : (s.clearChanged).tickPending = s.tickPending := rfl
@[simp] theorem clearChanged_load : (s.clearChanged).load = s.load := rfl
@[simp] theorem clearChanged_din : (s.clearChanged).din = s.din := rfl
@[simp] theorem clearChanged_clk : (s.clearChanged).clk = s.clk := rfl
@[simp] theorem clearChanged_chipSr : (s.clearChanged).chipSr = s.chipSr := rfl
@[simp] theorem clearChanged_chipOut : (s.clearChanged).chipOut = s.chipOut := rfl
@[simp] theorem clearChanged_bright : (s.clearChanged).bright = s.bright := rfl
@[simp] theorem clearChanged_port : (s.clearChanged).port = s.port := rfl
@[simp] theorem clearChanged_responses : (s.clearChanged).responses = s.responses := rfl
@[simp] theorem clearChanged_trace : (s.clearChanged).trace = s.trace := rfl
@[simp] theorem clearChanged_events : (s.clearChanged).events = s.events := rfl
@[simp] theorem clearChanged_freeCount : (s.clearChanged).freeCount = s.freeCount := rfl

/-! `tickArrival` -/

@[simp] theorem tickArrival_cfg : (tickArrival s).cfg = s.cfg := rfl
@[simp] theorem tickArrival_configured : (tickArrival s).configured = s.configured := rfl
@[simp] theorem tickArrival_nseg : (tickArrival s).nseg = s.nseg := rfl
@[simp] theorem tickArrival_ndig : (tickArrival s).ndig = s.ndig := rfl
@[simp] theorem tickArrival_segMap : (tickArrival s).segMap = s.segMap := rfl
@[simp] theorem tickArrival_posMap : (tickArrival s).posMap = s.posMap := rfl
@[simp] theorem tickArrival_text : (tickArrival s).text = s.text := rfl
@[simp] theorem tickArrival_textLen : (tickArrival s).textLen = s.textLen := rfl
@[simp] theorem tickArrival_startPos : (tickArrival s).startPos = s.startPos := rfl
@[simp] theorem tickArrival_maxPos : (tickArrival s).maxPos = s.maxPos := rfl
@[simp] theorem tickArrival_align : (tickArrival s).align = s.align := rfl
@[simp] theorem tickArrival_effect : (tickArrival s).effect = s.effect := rfl
@[simp] theorem tickArrival_cycleNum : (tickArrival s).cycleNum = s.cycleNum := rfl
@[simp] theorem tickArrival_visibleIdx : (tickArrival s).visibleIdx = s.visibleIdx := rfl
@[simp] theorem tickArrival_visibleLen : (tickArrival s).visibleLen = s.visibleLen := rfl
@[simp] theorem tickArrival_contentChanged : (tickArrival s).contentChanged = s.contentChanged := rfl
@[simp] theorem tickArrival_demoMode : (tickArrival s).demoMode = s.demoMode := rfl
@[simp] theorem tickArrival_demoCycleNum : (tickArrival s).demoCycleNum = s.demoCycleNum := rfl
@[simp] theorem tickArrival_demoIdx : (tickArrival s).demoIdx = s.demoIdx := rfl
@[simp] theorem tickArrival_demoCyclesLeft : (tickArrival s).demoCyclesLeft = s.demoCyclesLeft := rfl
@[simp] theorem tickArrival_blinkOn : (tickArrival s).blinkOn = s.blinkOn := rfl
@[simp] theorem tickArrival_effTimer : (tickArrival s).effTimer = s.effTimer := rfl
@[simp] theorem tickArrival_cyclesLeft : (tickArrival s).cyclesLeft = s.cyclesLeft := rfl
@[simp] theorem tickArrival_frame : (tickArrival s).frame = s.frame := rfl
@[simp] theorem tickArrival_fsm : (tickArrival s).fsm = s.fsm := rfl
@[simp] theorem tickArrival_digitIdx : (tickArrival s).digitIdx = s.digitIdx := rfl
@[simp] theorem tickArrival_bitIdx : (tickArrival s).bitIdx = s.bitIdx := rfl
@[simp] theorem tickArrival_shreg : (tickArrival s).shreg = s.shreg := rfl
@[simp] theorem tickArrival_tickPending : (tickArrival s).tickPending = true := rfl
@[simp] theorem tickArrival_load : (tickArrival s).load = s.load := rfl
@[simp] theorem tickArrival_din : (tickArrival s).din = s.din := rfl
@[simp] theorem tickArrival_clk : (tickArrival s).clk = s.clk := rfl
@[simp] theorem tickArrival_chipSr : (tickArrival s).chipSr = s.chipSr := rfl
@[simp] theorem tickArrival_chipOut : (tickArrival s).chipOut = s.chipOut := rfl
@[simp] theorem tickArrival_bright : (tickArrival s).bright = s.bright := rfl
@[simp] theorem tickArrival_port : (tickArrival s).port = s.port := rfl
@[simp] theorem tickArrival_responses : (tickArrival s).responses = s.responses := rfl
@[simp] theorem tickArrival_trace : (tickArrival s).trace = s.trace := rfl
@[simp] theorem tickArrival_events : (tickArrival s).events = s.events := rfl
@[simp] theorem tickArrival_freeCount : (tickArrival s).freeCount = s.freeCount := rfl

/-! `enterPass` -/

@[simp] theorem enterPass_cfg : (enterPass s).cfg = s.cfg := rfl
@[simp] theorem enterPass_configured : (enterPass s).configured = s.configured := rfl
@[simp] theorem enterPass_nseg : (enterPass s).nseg = s.nseg := rfl
@[simp] theorem enterPass_ndig : (enterPass s).ndig = s.ndig := rfl
@[simp] theorem enterPass_segMap : (enterPass s).segMap = s.segMap := rfl
@[simp] theorem enterPass_posMap : (enterPass s).posMap = s.posMap := rfl
@[simp] theorem enterPass_text : (enterPass s).text = s.text := rfl
@[simp] theorem enterPass_textLen : (enterPass s).textLen = s.textLen := rfl
@[simp] theorem enterPass_startPos : (enterPass s).startPos = s.startPos := rfl
@[simp] theorem enterPass_maxPos : (enterPass s).maxPos = s.maxPos := rfl
@[simp] theorem enterPass_align : (enterPass s).align = s.align := rfl
@[simp] theorem enterPass_effect : (enterPass s).effect = s.effect := rfl
@[simp] theorem enterPass_cycleNum : (enterPass s).cycleNum = s.cycleNum := rfl
@[simp] theorem enterPass_visibleIdx : (enterPass s).visibleIdx = s.visibleIdx := rfl
@[simp] theorem enterPass_visibleLen : (enterPass s).visibleLen = s.visibleLen := rfl
@[simp] theorem enterPass_contentChanged : (enterPass s).contentChanged = s.contentChanged := rfl
@[simp] theorem enterPass_demoMode : (enterPass s).demoMode = s.demoMode := rfl
@[simp] theorem enterPass_demoCycleNum : (enterPass s).demoCycleNum = s.demoCycleNum := rfl
@[simp] theorem enterPass_demoIdx : (enterPass s).demoIdx = s.demoIdx := rfl
@[simp] theorem enterPass_demoCyclesLeft : (enterPass s).demoCyclesLeft = s.demoCyclesLeft := rfl
@[simp] theorem enterPass_blinkOn : (enterPass s).blinkOn = s.blinkOn := rfl
@[simp] theorem enterPass_effTimer : (enterPass s).effTimer = s.effTimer := rfl
@[simp] theorem enterPass_cyclesLeft : (enterPass s).cyclesLeft = s.cyclesLeft := rfl
@[simp] theorem enterPass_frame : (enterPass s).frame = s.frame := rfl
@[simp] theorem enterPass_fsm : (enterPass s).fsm = if s.configured then .advance else .idle := rfl
@[simp] theorem enterPass_digitIdx : (enterPass s).digitIdx = s.digitIdx := rfl
@[simp] theorem enterPass_bitIdx : (enterPass s).bitIdx = s.bitIdx := rfl
@[simp] theorem enterPass_shreg : (enterPass s).shreg = s.shreg := rfl
@[simp] theorem enterPass_tickPending : (enterPass s).tickPending = false := rfl
@[simp] theorem enterPass_load : (enterPass s).load = s.load := rfl
@[simp] theorem enterPass_din : (enterPass s).din = s.din := rfl
@[simp] theorem enterPass_clk : (enterPass s).clk = s.clk := rfl
@[simp] theorem enterPass_chipSr : (enterPass s).chipSr = s.chipSr := rfl
@[simp] theorem enterPass_chipOut : (enterPass s).chipOut = s.chipOut := rfl
@[simp] theorem enterPass_bright : (enterPass s).bright = s.bright := rfl
@[simp] theorem enterPass_port : (enterPass s).port = s.port := rfl
@[simp] theorem enterPass_responses : (enterPass s).responses = s.responses := rfl
@[simp] theorem enterPass_trace : (enterPass s).trace = s.trace := rfl
@[simp] theorem enterPass_events : (enterPass s).events = s.events := rfl
@[simp] theorem enterPass_freeCount : (enterPass s).freeCount = s.freeCount := rfl

/-! `leavePass` -/

@[simp] theorem leavePass_cfg : (leavePass s).cfg = s.cfg := rfl
@[simp] theorem leavePass_configured : (leavePass s).configured = s.configured := rfl
@[simp] theorem leavePass_nseg : (leavePass s).nseg = s.nseg := rfl
@[simp] theorem leavePass_ndig : (leavePass s).ndig = s.ndig := rfl
@[simp] theorem leavePass_segMap : (leavePass s).segMap = s.segMap := rfl
@[simp] theorem leavePass_posMap : (leavePass s).posMap = s.posMap := rfl
@[simp] theorem leavePass_text : (leavePass s).text = s.text := rfl
@[simp] theorem leavePass_textLen : (leavePass s).textLen = s.textLen := rfl
@[simp] theorem leavePass_startPos : (leavePass s).startPos = s.startPos := rfl
@[simp] theorem leavePass_maxPos : (leavePass s).maxPos = s.maxPos := rfl
@[simp] theorem leavePass_align : (leavePass s).align = s.align := rfl
@[simp] theorem leavePass_effect : (leavePass s).effect = s.effect := rfl
@[simp] theorem leavePass_cycleNum : (leavePass s).cycleNum = s.cycleNum := rfl
@[simp] theorem leavePass_visibleIdx : (leavePass s).visibleIdx = s.visibleIdx := rfl
@[simp] theorem leavePass_visibleLen : (leavePass s).visibleLen = s.visibleLen := rfl
@[simp] theorem leavePass_contentChanged : (leavePass s).contentChanged = s.contentChanged := rfl
@[simp] theorem leavePass_demoMode : (leavePass s).demoMode = s.demoMode := rfl
@[simp] theorem leavePass_demoCycleNum : (leavePass s).demoCycleNum = s.demoCycleNum := rfl
@[simp] theorem leavePass_demoIdx : (leavePass s).demoIdx = s.demoIdx := rfl
@[simp] theorem leavePass_demoCyclesLeft : (leavePass s).demoCyclesLeft = s.demoCyclesLeft := rfl
@[simp] theorem leavePass_blinkOn : (leavePass s).blinkOn = s.blinkOn := rfl
@[simp] theorem leavePass_effTimer : (leavePass s).effTimer = s.effTimer := rfl
@[simp] theorem leavePass_cyclesLeft : (leavePass s).cyclesLeft = s.cyclesLeft := rfl
@[simp] theorem leavePass_frame : (leavePass s).frame = s.frame := rfl
@[simp] theorem leavePass_fsm : (leavePass s).fsm = .idle := rfl
@[simp] theorem leavePass_digitIdx : (leavePass s).digitIdx = s.digitIdx := rfl
@[simp] theorem leavePass_bitIdx : (leavePass s).bitIdx = s.bitIdx := rfl
@[simp] theorem leavePass_shreg : (leavePass s).shreg = s.shreg := rfl
@[simp] theorem leavePass_tickPending : (leavePass s).tickPending = s.tickPending := rfl
@[simp] theorem leavePass_load : (leavePass s).load = s.load := rfl
@[simp] theorem leavePass_din : (leavePass s).din = s.din := rfl
@[simp] theorem leavePass_clk : (leavePass s).clk = s.clk := rfl
@[simp] theorem leavePass_chipSr : (leavePass s).chipSr = s.chipSr := rfl
@[simp] theorem leavePass_chipOut : (leavePass s).chipOut = s.chipOut := rfl
@[simp] theorem leavePass_bright : (leavePass s).bright = s.bright := rfl
@[simp] theorem leavePass_port : (leavePass s).port = s.port := rfl
@[simp] theorem leavePass_responses : (leavePass s).responses = s.responses := rfl
@[simp] theorem leavePass_trace : (leavePass s).trace = s.trace := rfl
@[simp] theorem leavePass_events : (leavePass s).events = s.events := rfl
@[simp] theorem leavePass_freeCount : (leavePass s).freeCount = s.freeCount := rfl

end Sys2Proof.Machine
end

