-- ==== Sys2Proof/Laws/Cells.lean ====
section
/-! SUPPORT. What the storage operations do: reads after writes, and the canonical form that every write keeps. -/

namespace Sys2Proof.Machine

variable {α : Type}

/-- A read after a write: the value written at its own address, and what was there at every other. -/
@[simp] theorem cellRead_cellWrite (m : List (Nat × α)) (a b : Nat) (v : α) :
    cellRead (cellWrite m a v) b = if b = a then some v else cellRead m b := by
  induction m with
  | nil => simp [cellWrite, cellRead]
  | cons x t ih =>
    obtain ⟨c, w⟩ := x
    simp only [cellWrite]
    split
    · simp [cellRead]
    · split
      · subst a; simp only [cellRead]; split <;> rfl
      · simp only [cellRead, ih]; grind

/-- An address of the cells after a write is the written one or an address from before. -/
theorem mem_cellWrite (m : List (Nat × α)) (a : Nat) (v : α) (x : Nat × α) (h : x ∈ cellWrite m a v) :
    x = (a, v) ∨ x ∈ m := by
  induction m with
  | nil => simpa [cellWrite] using h
  | cons y t ih =>
    obtain ⟨c, w⟩ := y
    simp only [cellWrite] at h
    split at h
    · simpa using h
    · split at h
      · simp only [List.mem_cons] at h ⊢; tauto
      · simp only [List.mem_cons] at h ⊢
        rcases h with h | h
        · exact .inr (.inl h)
        · rcases ih h with h | h
          · exact .inl h
          · exact .inr (.inr h)

/-- A write keeps addresses strictly rising. -/
theorem cellWrite_sorted (m : List (Nat × α)) (a : Nat) (v : α) (h : m.Pairwise fun x y => x.1 < y.1) :
    (cellWrite m a v).Pairwise fun x y => x.1 < y.1 := by
  induction m with
  | nil => simp [cellWrite]
  | cons y t ih =>
    obtain ⟨c, w⟩ := y
    rw [List.pairwise_cons] at h
    simp only [cellWrite]
    split
    · next hlt =>
      refine List.pairwise_cons.mpr ⟨fun z hz => ?_, List.pairwise_cons.mpr h⟩
      rcases List.mem_cons.mp hz with rfl | hz
      · exact hlt
      · exact hlt.trans (h.1 z hz)
    · split
      · next heq => subst heq; exact List.pairwise_cons.mpr ⟨fun z hz => h.1 z hz, h.2⟩
      · refine List.pairwise_cons.mpr ⟨fun z hz => ?_, ih h.2⟩
        rcases mem_cellWrite t a v z hz with rfl | hz
        · simp only; omega
        · exact h.1 z hz

/-- A write keeps the canonical form of the text buffer. -/
theorem Memory.wf_cellWrite (m : Memory) (a : Nat) (b : Byte) (h : m.wf) : Memory.wf (cellWrite m a b) :=
  cellWrite_sorted m a b h

/-- Storing a run of bytes keeps the canonical form of the text buffer. -/
theorem Memory.wf_writeBytes (l : List Byte) (m : Memory) (k : Nat) (h : m.wf) : Memory.wf (writeBytes m k l) := by
  induction l generalizing m k with
  | nil => exact h
  | cons b t ih => exact ih _ _ (Memory.wf_cellWrite m k b h)

/-- The text buffer after reset has the canonical form. -/
theorem Memory.wf_reset : Memory.wf State.reset.text := List.Pairwise.nil

/-- A read after a run of bytes is stored: the byte stored there, and what was there at every other address. -/
theorem cellRead_writeBytes (l : List Byte) (m : Memory) (k a : Nat) :
    cellRead (writeBytes m k l) a = if k ≤ a ∧ a < k + l.length then l[a - k]? else cellRead m a := by
  induction l generalizing m k with
  | nil => simp only [writeBytes, List.length_nil]; grind
  | cons b t ih =>
    simp only [writeBytes, ih, cellRead_cellWrite, List.length_cons]
    by_cases h1 : a = k
    · subst h1; simp
    · by_cases h2 : k + 1 ≤ a ∧ a < k + 1 + t.length
      · have h3 : a - k = (a - (k + 1)) + 1 := by omega
        have h4 : k ≤ a ∧ a < k + (t.length + 1) := by omega
        rw [if_pos h2, if_pos h4, h3, List.getElem?_cons_succ]
      · have h4 : ¬(k ≤ a ∧ a < k + (t.length + 1)) := by omega
        rw [if_neg h2, if_neg h4, if_neg h1]

/-- A map's register file after a run of pins is written from entry `base`: the pin written, cut to 5 bits, and what was there
in every other entry. -/
theorem writeMap_getElem? (l : List Byte) (v : Vector Pin 20) (base i : Nat) (hi : i < 20) :
    (writeMap v base l)[i]? = if base ≤ i ∧ i < base + l.length then (l[i - base]?).map (·.setWidth 5) else v[i]? := by
  induction l generalizing v base with
  | nil => simp only [writeMap, List.length_nil]; grind
  | cons b t ih =>
    simp only [writeMap, ih, List.length_cons]
    by_cases h1 : i = base
    · subst h1; simp [hi]
    · by_cases h2 : base + 1 ≤ i ∧ i < base + 1 + t.length
      · have h3 : i - base = (i - (base + 1)) + 1 := by omega
        have h4 : base ≤ i ∧ i < base + (t.length + 1) := by omega
        rw [if_pos h2, if_pos h4, h3, List.getElem?_cons_succ]
      · have h4 : ¬(base ≤ i ∧ i < base + (t.length + 1)) := by omega
        rw [if_neg h2, if_neg h4, Vector.getElem?_setIfInBounds_ne (by omega)]

/-- What a read of `TEXT` can answer (R52): the character stored there, for an address below `text_len`. -/
theorem textRead_eq_ok {s : State} {k : Nat} {c : Byte} :
    textRead s k = .ok c ↔ k < s.textLen ∧ cellRead s.text k = some c := by
  unfold textRead
  split
  · next h => cases hc : cellRead s.text k <;> simp [h]
  · next h => simp [h]

/-- What a read of `FRAME` can answer (R14): the entry, for an entry of the file. -/
theorem frameRead_eq_ok {s : State} {p : Nat} {f : Frame} : frameRead s p = .ok f ↔ s.frame[p]? = some f := by
  unfold frameRead
  cases hc : s.frame[p]? <;> simp

/-- The 20 entries of `FRAME` can all be read (R14). -/
theorem frameRead_of_lt {s : State} {p : Nat} (h : p < 20) : frameRead s p = .ok s.frame[p] := by
  rw [frameRead_eq_ok]; simp [h]

/-- A read of `FRAME` after a write: the frame written at its own position, and what was there at every other. -/
theorem FrameFile.getElem?_write (m : FrameFile) (p q : Nat) (f : Frame) (hp : p < 20) :
    (m.setIfInBounds p f)[q]? = if q = p then some f else m[q]? := by
  by_cases h : q = p
  · subst h; simp [hp]
  · rw [if_neg h, Vector.getElem?_setIfInBounds_ne (Ne.symm h)]

/-- A write of what `FRAME` already holds there changes nothing. -/
theorem FrameFile.write_of_read (m : FrameFile) (p : Nat) (f : Frame) (h : m[p]? = some f) : m.setIfInBounds p f = m := by
  obtain ⟨hp, hf⟩ := Vector.getElem?_eq_some_iff.mp h
  ext q hq
  by_cases h : p = q <;> simp_all

/-- What a read of `POSMAP` can answer (R13): the entry, for an entry of the file. -/
theorem posPin_eq_ok {s : State} {p : Nat} {pin : Pin} : posPin s p = .ok pin ↔ s.posMap[p]? = some pin := by
  unfold posPin
  cases hc : s.posMap[p]? <;> simp

end Sys2Proof.Machine
end

