-- ==== Sys2Proof/Laws/Encoder.lean ====
section
/-! SUPPORT. What the font lookup and the segment encoder answer. -/

namespace Sys2Proof.Machine

/-- The ROM address of a supported character code (R75). -/
theorem romAddr_supported {c : Byte} (h : 0x20 ≤ c.toNat ∧ c.toNat ≤ 0x7E) : (romAddr c : Nat) = c.toNat - 0x20 := by
  simp [romAddr, h]

/-- The ROM address of every other code is the space's (R102). -/
theorem romAddr_unsupported {c : Byte} (h : ¬(0x20 ≤ c.toNat ∧ c.toNat ≤ 0x7E)) : romAddr c = 0 := by
  simp only [romAddr]; rw [dif_neg h]

/-- Only the full stop has ROM address 14 (R105). -/
theorem romAddr_eq_dp {c : Byte} : romAddr c = 14 ↔ c = 0x2E := by
  constructor
  · intro h
    by_cases hs : 0x20 ≤ c.toNat ∧ c.toNat ≤ 0x7E
    · have h1 := romAddr_supported hs
      rw [h] at h1
      apply BitVec.eq_of_toNat_eq
      simp at h1 ⊢; omega
    · rw [romAddr_unsupported hs] at h; simp at h
  · rintro rfl; rfl

/-- A bit of a one-pin mask. -/
theorem getLsbD_onePin (n j : Nat) : ((1#20 <<< n).getLsbD j = true) ↔ j < 20 ∧ n = j := by
  by_cases h : n = j
  · subst h; simp
  · simp only [BitVec.getLsbD_shiftLeft, BitVec.getLsbD_one]; simp; omega

/-- The pins that `litPins` answers: those of the lit segment indices below `n` (R104). -/
theorem getLsbD_litPins (s : State) (g : Glyph) (n j : Nat) :
    (litPins s g n).getLsbD j = true ↔ j < 20 ∧ ∃ i, i < n ∧ g.getLsbD i = true ∧ (segPin s i).toNat = j := by
  induction n with
  | zero => simp [litPins]
  | succ n ih =>
    have key : (∃ i, i < n + 1 ∧ g.getLsbD i = true ∧ (segPin s i).toNat = j) ↔
        (∃ i, i < n ∧ g.getLsbD i = true ∧ (segPin s i).toNat = j) ∨ (g.getLsbD n = true ∧ (segPin s n).toNat = j) := by
      constructor
      · rintro ⟨i, hi, h⟩
        rcases Nat.lt_succ_iff_lt_or_eq.mp hi with h1 | rfl
        · exact .inl ⟨i, h1, h⟩
        · exact .inr h
      · rintro (⟨i, hi, h⟩ | h)
        · exact ⟨i, by omega, h⟩
        · exact ⟨n, by omega, h⟩
    rw [key]
    simp only [litPins]
    split
    · next hg => rw [BitVec.getLsbD_or, Bool.or_eq_true, ih, getLsbD_onePin]; simp only [hg, true_and]; exact and_or_left.symm
    · next hg => rw [ih]; simp [hg]

end Sys2Proof.Machine
end

