-- ==== Sys2Proof/Laws/Multiplexer.lean ====
section
/-! SUPPORT. What REBUILD and its parts can answer: one inversion lemma for each. -/

namespace Sys2Proof.Machine

/-- A pin that lies in a mask of the encoder is the pin of a segment index below `NSEG`. -/
theorem isSegPin_of_encodePins {s : State} {c : Byte} {j : Nat} (h : (encodePins s c).getLsbD j = true) : isSegPin s j := by
  obtain ⟨-, i, hi, -, hp⟩ := (getLsbD_litPins _ _ _ _).mp h
  exact ⟨i, by omega, hp⟩

/-- What taking a character can answer (R161, R162): the pins of the character at the cursor, the cursor one further; or, for a
plain glyph followed by a decimal point inside the visible substring, both characters' pins and the cursor two further. -/
theorem takeCharacter_cases {s : State} {k stop k' : Nat} {m : PinMask} (h : takeCharacter s k stop = .ok (m, k')) :
    ∃ c, sourceRead s k = .ok c ∧
      ((k' = k + 1 ∧ m = encodePins s c ∧
          (isDpOnly s c = true ∨ stop ≤ k + 1 ∨ ∃ d, sourceRead s (k + 1) = .ok d ∧ isDpOnly s d = false)) ∨
        (k' = k + 2 ∧ isDpOnly s c = false ∧ k + 1 < stop ∧ ∃ d, sourceRead s (k + 1) = .ok d ∧ isDpOnly s d = true ∧
          m = encodePins s c ||| encodePins s d)) := by
  unfold takeCharacter at h
  cases hc : sourceRead s k with
  | error e => simp [hc, bind, Except.bind] at h
  | ok c =>
    refine ⟨c, rfl, ?_⟩
    simp only [hc, bind, Except.bind] at h
    split at h
    · next hp =>
      cases hd : sourceRead s (k + 1) with
      | error e => simp [hd] at h
      | ok d =>
        simp only [hd] at h
        split at h
        · next hdp =>
          simp only [pure, Except.pure, Except.ok.injEq, Prod.mk.injEq] at h
          exact .inr ⟨h.2.symm, hp.1, hp.2, d, rfl, hdp, h.1.symm⟩
        · next hdp =>
          simp only [pure, Except.pure, Except.ok.injEq, Prod.mk.injEq] at h
          exact .inl ⟨h.2.symm, h.1.symm, .inr (.inr ⟨d, rfl, by simpa using hdp⟩)⟩
    · next hp =>
      simp only [pure, Except.pure, Except.ok.injEq, Prod.mk.injEq] at h
      refine .inl ⟨h.2.symm, h.1.symm, ?_⟩
      cases hq : isDpOnly s c
      · exact .inr (.inl (by simpa [hq] using hp))
      · exact .inl rfl

/-- Pins taken from the text are segment pins. -/
theorem takeCharacter_segPins {s : State} {k stop k' : Nat} {m : PinMask} (h : takeCharacter s k stop = .ok (m, k')) {j : Nat}
    (hj : m.getLsbD j = true) : isSegPin s j := by
  obtain ⟨c, -, ⟨-, rfl, -⟩ | ⟨-, -, -, d, -, -, rfl⟩⟩ := takeCharacter_cases h
  · exact isSegPin_of_encodePins hj
  · rw [BitVec.getLsbD_or, Bool.or_eq_true] at hj
    exact hj.elim isSegPin_of_encodePins isSegPin_of_encodePins

/-- Taking a character completes where the source can be read at the cursor and, if asked for, after it. -/
theorem takeCharacter_ok {s : State} {k stop : Nat} (hk : k < stop) (h : ∀ j, k ≤ j → j < stop → ∃ c, sourceRead s j = .ok c) :
    ∃ m k', takeCharacter s k stop = .ok (m, k') := by
  obtain ⟨c, hc⟩ := h k le_rfl hk
  by_cases hp : isDpOnly s c = false ∧ k + 1 < stop
  · obtain ⟨d, hd⟩ := h (k + 1) (by omega) hp.2
    by_cases hq : isDpOnly s d = true
    · exact ⟨encodePins s c ||| encodePins s d, k + 2, by
        simp [takeCharacter, hc, hd, hp.1, hp.2, hq, bind, Except.bind, pure, Except.pure]⟩
    · exact ⟨encodePins s c, k + 1, by simp [takeCharacter, hc, hd, hp.1, hp.2, hq, bind, Except.bind, pure, Except.pure]⟩
  · refine ⟨encodePins s c, k + 1, ?_⟩
    simp only [takeCharacter, hc, bind, Except.bind]
    rw [if_neg hp]; rfl

/-- What building one frame can answer (R160, R163, R164): the select bit of the position, alone or with the pins of the
characters it takes; and the cursor moves only where the position takes characters. -/
theorem buildFrame_cases {s : State} {w : WalkPlan} {p k k' : Nat} {f : Frame} (h : buildFrame s w p k = .ok (f, k')) :
    ∃ pin, posPin s p = .ok pin ∧
      ((¬(w.lo ≤ p ∧ p ≤ w.hi ∧ k < w.stop) ∧ f = 1#24 <<< pin.toNat ∧ k' = k) ∨
        ((w.lo ≤ p ∧ p ≤ w.hi ∧ k < w.stop) ∧ ∃ m, takeCharacter s k w.stop = .ok (m, k') ∧
          f = if w.shown then (1#24 <<< pin.toNat) ||| m.setWidth 24 else 1#24 <<< pin.toNat)) := by
  unfold buildFrame blankFrame at h
  cases hp : posPin s p with
  | error e => simp [hp, bind, Except.bind] at h
  | ok pin =>
    refine ⟨pin, rfl, ?_⟩
    simp only [hp, bind, Except.bind, pure, Except.pure] at h
    split at h
    · next hw =>
      cases ht : takeCharacter s k w.stop with
      | error e => simp [ht] at h
      | ok r =>
        obtain ⟨m, k2⟩ := r
        simp only [ht, Except.ok.injEq, Prod.mk.injEq] at h
        obtain ⟨h1, rfl⟩ := h
        exact .inr ⟨hw, m, rfl, h1.symm⟩
    · next hw =>
      simp only [Except.ok.injEq, Prod.mk.injEq] at h
      exact .inl ⟨hw, h.1.symm, h.2.symm⟩

/-- Building one frame completes where the position has a pin and the source can be read up to the end of the walk. -/
theorem buildFrame_ok {s : State} {w : WalkPlan} {p k : Nat} {pin : Pin} (hp : posPin s p = .ok pin)
    (h : ∀ j, k ≤ j → j < w.stop → ∃ c, sourceRead s j = .ok c) : ∃ f k', buildFrame s w p k = .ok (f, k') ∧ k ≤ k' := by
  by_cases hw : w.lo ≤ p ∧ p ≤ w.hi ∧ k < w.stop
  · obtain ⟨m, k', ht⟩ := takeCharacter_ok hw.2.2 h
    refine ⟨if w.shown then (1#24 <<< pin.toNat) ||| m.setWidth 24 else 1#24 <<< pin.toNat, k', ?_, ?_⟩
    · simp only [buildFrame, blankFrame, hp, bind, Except.bind, pure, Except.pure]
      rw [if_pos hw]; simp [ht]
    · obtain ⟨c, -, ⟨rfl, -⟩ | ⟨rfl, -⟩⟩ := takeCharacter_cases ht <;> omega
  · refine ⟨1#24 <<< pin.toNat, k, ?_, le_rfl⟩
    simp only [buildFrame, blankFrame, hp, bind, Except.bind, pure, Except.pure]
    rw [if_neg hw]

/-- One position of the walk, unfolded. -/
theorem buildFrames_succ_eq_ok {s : State} {w : WalkPlan} {n p k : Nat} {f f' : FrameFile} :
    buildFrames s w (n + 1) p k f = .ok f' ↔
      ∃ fr k', buildFrame s w p k = .ok (fr, k') ∧ buildFrames s w n (p + 1) k' (f.setIfInBounds p fr) = .ok f' := by
  simp only [buildFrames, bind, Except.bind]
  cases hb : buildFrame s w p k with
  | error e => simp
  | ok r => obtain ⟨fr, k'⟩ := r; simp

/-- The walk writes every position it covers with a frame that `buildFrame` answered there, and no other position. -/
theorem buildFrames_read {s : State} {w : WalkPlan} (n p k : Nat) (f f' : FrameFile) (h : buildFrames s w n p k f = .ok f')
    (q : Nat) :
    if p ≤ q ∧ q < p + n then ∃ kq fr k', buildFrame s w q kq = .ok (fr, k') ∧ f'[q]? = some fr
    else f'[q]? = f[q]? := by
  induction n generalizing p k f with
  | zero =>
    simp only [buildFrames, Except.ok.injEq] at h
    subst h
    rw [if_neg (by omega)]
  | succ n ih =>
    obtain ⟨fr, k', hb, hr⟩ := buildFrames_succ_eq_ok.mp h
    have hp : p < 20 := by
      obtain ⟨pin, hpin, -⟩ := buildFrame_cases hb
      rw [posPin_eq_ok, Vector.getElem?_eq_some_iff] at hpin
      exact hpin.1
    have := ih (p + 1) k' _ hr
    rw [FrameFile.getElem?_write f p q fr hp] at this
    by_cases hq : q = p
    · subst hq
      rw [if_neg (by omega)] at this
      rw [if_pos (by omega)]
      exact ⟨k, fr, k', hb, by simpa using this⟩
    · by_cases hq2 : p + 1 ≤ q ∧ q < p + 1 + n
      · rw [if_pos hq2] at this
        rw [if_pos (by omega)]
        exact this
      · rw [if_neg hq2] at this
        rw [if_neg (by omega)]
        simpa [hq] using this

/-- The walk completes where its positions have pins and the source can be read. -/
theorem buildFrames_ok {s : State} {w : WalkPlan} (n p k : Nat) (f : FrameFile)
    (hp : ∀ q, p ≤ q → q < p + n → ∃ pin, posPin s q = .ok pin)
    (h : ∀ j, k ≤ j → j < w.stop → ∃ c, sourceRead s j = .ok c) : ∃ f', buildFrames s w n p k f = .ok f' := by
  induction n generalizing p k f with
  | zero => exact ⟨f, rfl⟩
  | succ n ih =>
    obtain ⟨pin, hpin⟩ := hp p le_rfl (by omega)
    obtain ⟨fr, k', hb, hk⟩ := buildFrame_ok (w := w) hpin h
    obtain ⟨f', hf⟩ := ih (p + 1) k' (f.setIfInBounds p fr) (fun q h1 h2 => hp q (by omega) (by omega))
      (fun j h1 h2 => h j (by omega) h2)
    exact ⟨f', buildFrames_succ_eq_ok.mpr ⟨fr, k', hb, hf⟩⟩

/-- What REBUILD can answer (R160): the state with a new frame buffer and the dirty flag cleared, nothing else changed. -/
theorem rebuild_eq_ok {s t : State} : rebuild s = .ok t ↔
    ∃ f, buildFrames s (walkPlan s) s.ndig.toNat 0 (walkPlan s).start s.frame = .ok f ∧
      t = { s with frame := f, contentChanged := false } := by
  simp only [rebuild, bind, Except.bind]
  cases hb : buildFrames s (walkPlan s) s.ndig.toNat 0 (walkPlan s).start s.frame with
  | error e => simp
  | ok f => simp [pure, Except.pure, eq_comm]

end Sys2Proof.Machine
end

