-- ==== Sys2Proof/Laws/Timer.lean ====
section
/-! SUPPORT. What the timer's operations change, and what each can do. -/

namespace Sys2Proof.Machine

/-- Counting a cycle writes `cycles_left` and `effect` only. -/
theorem countCycle_frame (s : State) :
    countCycle s = { s with cyclesLeft := (countCycle s).cyclesLeft, effect := (countCycle s).effect } := by
  unfold countCycle; split <;> rfl

/-- What counting a cycle can do (R203, R205): nothing for an endless effect, otherwise one cycle less, and at 0 the end. -/
theorem countCycle_cases (s : State) :
    (s.cycleNum = 0 ∧ countCycle s = s) ∨
      (s.cycleNum ≠ 0 ∧ s.cyclesLeft - 1 = 0 ∧ countCycle s = { s with cyclesLeft := 0, effect := .none }) ∨
      (s.cycleNum ≠ 0 ∧ s.cyclesLeft - 1 ≠ 0 ∧ countCycle s = { s with cyclesLeft := s.cyclesLeft - 1 }) := by
  unfold countCycle
  by_cases h : s.cycleNum = 0
  · exact .inl ⟨h, if_pos h⟩
  · by_cases h2 : s.cyclesLeft - 1 = 0
    · refine .inr (.inl ⟨h, h2, ?_⟩)
      rw [if_neg h, h2, if_pos rfl]
    · refine .inr (.inr ⟨h, h2, ?_⟩)
      rw [if_neg h, if_neg h2]

/-- What counting a demo cycle can do (R207). -/
theorem countDemoCycle_cases (s : State) :
    (s.demoCycleNum = 0 ∧ countDemoCycle s = s) ∨
      (s.demoCycleNum ≠ 0 ∧ s.demoCyclesLeft - 1 = 0 ∧
        countDemoCycle s = { s with demoCyclesLeft := 0, demoMode := .off }) ∨
      (s.demoCycleNum ≠ 0 ∧ s.demoCyclesLeft - 1 ≠ 0 ∧
        countDemoCycle s = { s with demoCyclesLeft := s.demoCyclesLeft - 1 }) := by
  unfold countDemoCycle
  by_cases h : s.demoCycleNum = 0
  · exact .inl ⟨h, if_pos h⟩
  · by_cases h2 : s.demoCyclesLeft - 1 = 0
    · refine .inr (.inl ⟨h, h2, ?_⟩)
      rw [if_neg h, h2, if_pos rfl]
    · refine .inr (.inr ⟨h, h2, ?_⟩)
      rw [if_neg h, if_neg h2]

/-- Counting a demo cycle writes `demo_cycles_left` and `demo_mode` only. -/
theorem countDemoCycle_frame (s : State) :
    countDemoCycle s =
      { s with demoCyclesLeft := (countDemoCycle s).demoCyclesLeft, demoMode := (countDemoCycle s).demoMode } := by
  unfold countDemoCycle; split <;> rfl

/-- BLINK_TOGGLE writes the phase, the count, the effect and the dirty flag only (R203). -/
theorem blinkToggle_frame (s : State) :
    blinkToggle s = { s with
      blinkOn := !s.blinkOn
      cyclesLeft := (blinkToggle s).cyclesLeft
      effect := (blinkToggle s).effect
      contentChanged := true } := by
  unfold blinkToggle
  split
  · next h => simp [State.markChanged, h]
  · next h => rw [countCycle_frame]; simp [State.markChanged, h]

/-- SCROLL_STEP writes the cursor, the count, the effect and the dirty flag only (R205). -/
theorem scrollStep_frame (s : State) :
    scrollStep s = { s with
      visibleIdx := (scrollStep s).visibleIdx
      cyclesLeft := (scrollStep s).cyclesLeft
      effect := (scrollStep s).effect
      contentChanged := (scrollStep s).contentChanged } := by
  unfold scrollStep
  split
  · split
    · rw [countCycle_frame]; rfl
    · rfl
  · rfl

/-- What SCROLL_STEP can do (R205). -/
theorem scrollStep_cases (s : State) :
    (s.effect ≠ .scrollLeft ∧ scrollStep s = s) ∨
      (s.effect = .scrollLeft ∧ s.visibleIdx + 1 + windowWidth s ≤ s.textLen ∧
        scrollStep s = { s with visibleIdx := s.visibleIdx + 1, contentChanged := true }) ∨
      (s.effect = .scrollLeft ∧ s.textLen < s.visibleIdx + 1 + windowWidth s ∧
        scrollStep s = countCycle { s with visibleIdx := 0, contentChanged := true }) := by
  unfold scrollStep
  by_cases h : s.effect = .scrollLeft
  · by_cases h2 : s.textLen < s.visibleIdx + 1 + windowWidth s
    · exact .inr (.inr ⟨h, h2, by rw [if_pos h, if_pos h2]; rfl⟩)
    · exact .inr (.inl ⟨h, by omega, by rw [if_pos h, if_neg h2]; rfl⟩)
  · exact .inl ⟨h, if_neg h⟩

/-- DEMO_STEP writes the demo's cursor, count and mode and the dirty flag only (R207). -/
theorem demoStep_frame (s : State) :
    demoStep s = { s with
      demoIdx := (demoStep s).demoIdx
      demoCyclesLeft := (demoStep s).demoCyclesLeft
      demoMode := (demoStep s).demoMode
      contentChanged := true } := by
  unfold demoStep
  split
  · rw [countDemoCycle_frame]; rfl
  · rfl

/-- What DEMO_STEP can do (R207). -/
theorem demoStep_cases (s : State) :
    (s.demoIdx.toNat + 1 + s.ndig.toNat ≤ 95 ∧
        demoStep s = { s with demoIdx := s.demoIdx + 1, contentChanged := true }) ∨
      (95 < s.demoIdx.toNat + 1 + s.ndig.toNat ∧
        demoStep s = countDemoCycle { s with demoIdx := 0, contentChanged := true }) := by
  unfold demoStep
  by_cases h : 95 < s.demoIdx.toNat + 1 + s.ndig.toNat
  · exact .inr ⟨h, by rw [if_pos h]; rfl⟩
  · exact .inl ⟨by omega, by rw [if_neg h]; rfl⟩

/-- ADVANCE writes the timer, the phase, the cursors, the counts, the effect, the demo mode and the dirty flag only (R200). -/
theorem advance_frame (s : State) :
    advance s = { s with
      effTimer := (advance s).effTimer
      blinkOn := (advance s).blinkOn
      cyclesLeft := (advance s).cyclesLeft
      effect := (advance s).effect
      visibleIdx := (advance s).visibleIdx
      demoIdx := (advance s).demoIdx
      demoCyclesLeft := (advance s).demoCyclesLeft
      demoMode := (advance s).demoMode
      contentChanged := (advance s).contentChanged } := by
  unfold advance
  split
  · split
    · rw [demoStep_frame]; rfl
    · rfl
  · split
    · split
      · rw [blinkToggle_frame]; rfl
      · rfl
    · split
      · rw [scrollStep_frame]; rfl
      · rfl
    · rfl

end Sys2Proof.Machine
end

