-- ==== Sys2Proof/Laws/Scheduler.lean ====
section
/-! SUPPORT. What each micro-step of the refresh FSM can answer, and what reset leaves. -/

namespace Sys2Proof.Machine

@[simp] theorem ofExcept_ok (s : State) : Result.ofExcept (.ok s) = .next s := rfl
@[simp] theorem ofExcept_error (e : Fault) : Result.ofExcept (.error e) = .fault e := rfl

/-- An operation that can fault answers a next state exactly when it succeeds. -/
theorem ofExcept_eq_next {r : Except Fault State} {t : State} : Result.ofExcept r = .next t ↔ r = .ok t := by
  cases r <;> simp [Result.ofExcept]

/-- The REBUILD micro-step (R185): with a clean flag only the FSM moves on, otherwise REBUILD comes first. -/
theorem microRebuild_eq_next {s t : State} : microRebuild s = .next t ↔
    (s.contentChanged = false ∧ t = { s with digitIdx := 0, fsm := .txLow }) ∨
      (s.contentChanged = true ∧ ∃ u, rebuild s = .ok u ∧ t = { u with digitIdx := 0, fsm := .txLow }) := by
  unfold microRebuild
  rw [ofExcept_eq_next]
  cases hc : s.contentChanged
  · simp [bind, Except.bind, pure, Except.pure, hc, eq_comm]
  · cases hr : rebuild s with
    | error e => simp [bind, Except.bind]
    | ok u => simp [bind, Except.bind, pure, Except.pure, eq_comm]

/-- The TX_LOW micro-step (R186). -/
theorem microTxLow_eq_next {s t : State} : microTxLow s = .next t ↔
    ∃ f, s.frame[s.digitIdx.toNat]? = some f ∧
      t = { s with
        trace := s.trace ++ [.loadLow], load := false, shreg := f, bitIdx := 23, fsm := .txShift } := by
  unfold microTxLow
  rw [ofExcept_eq_next]
  unfold frameRead
  cases hr : s.frame[s.digitIdx.toNat]? with
  | none => simp [bind, Except.bind]
  | some f => simp [bind, Except.bind, pure, Except.pure, State.emit, chipShift, chipLatch, eq_comm]

/-- The TX_SHIFT micro-step (R187): one bit leaves, and after bit 0 the frame is complete. -/
theorem microTxShift_eq (s : State) : microTxShift s = .next { s with
    trace := s.trace ++ [.bit (s.shreg.getLsbD s.bitIdx.toNat)]
    chipSr := chipShift s.chipSr (.bit (s.shreg.getLsbD s.bitIdx.toNat))
    din := s.shreg.getLsbD s.bitIdx.toNat
    bitIdx := if s.bitIdx = 0 then s.bitIdx else s.bitIdx - 1
    fsm := if s.bitIdx = 0 then .txHigh else s.fsm } := by
  unfold microTxShift
  split
  · next h => simp [State.emit, chipLatch, h]
  · simp [State.emit, chipLatch]

/-- The TX_HIGH micro-step (R188): the chip shows what was shifted, and the pass goes on to the next position or ends. -/
theorem microTxHigh_eq (s : State) : microTxHigh s = .next { s with
    trace := s.trace ++ [.loadHigh]
    chipOut := s.chipSr
    load := true
    digitIdx := if s.digitIdx.toNat + 1 = s.ndig.toNat then s.digitIdx else s.digitIdx + 1
    fsm := if s.digitIdx.toNat + 1 = s.ndig.toNat then .idle else .txLow } := by
  unfold microTxHigh
  split
  · simp [State.emit, leavePass, chipShift, chipLatch]
  · simp [State.emit, chipShift, chipLatch]

/-- What a micro-step can answer, by the state of the FSM. -/
theorem microStep_eq (s : State) : microStep s = (match s.fsm with
    | .idle => .next (if s.tickPending then enterPass s else s)
    | .advance => .next { advance s with fsm := .rebuild }
    | .rebuild => microRebuild s
    | .txLow => microTxLow s
    | .txShift => microTxShift s
    | .txHigh => microTxHigh s) := rfl

/-- The extra step of the policy `mixed` (93 U2): nothing, or a REBUILD between two frames of a pass. -/
theorem midpassStep_eq_next {s t : State} : midpassStep s = .next t ↔
    (¬(s.cfg.midpass = .mixed ∧ s.fsm = .txLow ∧ 0 < s.digitIdx.toNat ∧ s.contentChanged) ∧ t = s) ∨
      (s.cfg.midpass = .mixed ∧ s.fsm = .txLow ∧ 0 < s.digitIdx.toNat ∧ s.contentChanged) ∧ rebuild s = .ok t := by
  unfold midpassStep
  split
  · next h => rw [ofExcept_eq_next]; simp [h]
  · next h =>
    constructor
    · intro he; injection he with he; exact .inl ⟨h, he.symm⟩
    · rintro (⟨-, rfl⟩ | ⟨h2, -⟩)
      · rfl
      · exact absurd h2 h

end Sys2Proof.Machine
end

