-- ==== Sys2Proof/Laws/Commands.lean ====
section
/-! SUPPORT. What the validity checks and the command port answer. -/

namespace Sys2Proof.Machine

/-- `setup_valid` (R121), conjunct by conjunct. -/
theorem setupValid_iff {s : State} {a b : Byte} {pl : List Byte} : setupValid s a b pl = true ↔
    s.configured = false ∧ pl.length = a.toNat + b.toNat ∧ (1 ≤ a.toNat ∧ 1 ≤ b.toNat) ∧ a.toNat + b.toNat ≤ 20 ∧
      (∀ x ∈ pl, x.toNat ≤ 19) ∧ pl.Nodup := by
  simp only [setupValid, decide_eq_true_eq]

/-- The check of R121 as the claims state it, payload byte by payload byte. -/
theorem setupAllowed_iff {s : State} {a b : Byte} {pl : List Byte} : SetupAllowed s a b pl ↔ setupValid s a b pl = true := by
  rw [setupValid_iff]
  unfold SetupAllowed
  have h1 : (∀ (j : Nat) (x : Byte), pl[j]? = some x → x.toNat ≤ 19) ↔ ∀ x ∈ pl, x.toNat ≤ 19 := by
    constructor
    · intro h x hx
      obtain ⟨j, hj⟩ := List.mem_iff_getElem?.mp hx
      exact h j x hj
    · intro h j x hx
      exact h x (List.mem_of_getElem? hx)
  have h2 : (∀ (j k : Nat) (x y : Byte), j < k → pl[j]? = some x → pl[k]? = some y → x ≠ y) ↔ pl.Nodup := by
    rw [List.nodup_iff_getElem?_ne_getElem?]
    constructor
    · intro h i j hij hj he
      have hi : i < pl.length := by omega
      exact h i j pl[i] pl[j] hij (by simp [hi]) (by simp [hj]) (by simpa [hi, hj] using he)
    · intro h j k x y hjk hx hy hxy
      have := (List.getElem?_eq_some_iff.mp hy).1
      exact h j k hjk this (by rw [hx, hy, hxy])
  rw [h1, h2]; tauto

/-- `window_valid` (R125), conjunct by conjunct. -/
theorem windowValid_iff {s : State} {a b : Nat} : windowValid s a b = true ↔
    s.configured = true ∧ a ≤ b ∧ b < s.ndig.toNat ∧ b ≤ s.cfg.textCap := by
  simp only [windowValid, decide_eq_true_eq]

/-- The check of R125 as the claims state it. -/
theorem windowAllowed_iff {s : State} {a b : Nat} : WindowAllowed s a b ↔ windowValid s a b = true := windowValid_iff.symm

/-- A rejected command answers its status with count 0 and writes nothing (R7, R120). -/
theorem raiseStatus_eq (st : Status) (s : State) :
    raiseStatus st s = .next { s with responses := s.responses ++ [responseWord st 0] } := rfl

/-- The decoder accepts every header with its `N` payload bytes (R80). -/
theorem decode_eq_ok {h : Word} {pl : List Byte} (hl : hdrN h ≤ pl.length) :
    decode h pl = .ok (decodeCommand h (pl.take (hdrN h)), pl.drop (hdrN h)) := by
  unfold decode; rw [if_neg (by omega)]

/-- A command that has wholly arrived is performed, with the port idle again (R80). -/
theorem performCommand_eq {h : Word} {pl : List Byte} (hl : hdrN h = pl.length) (s : State) :
    performCommand h pl s = exec (decodeCommand h pl) { s with port := .idle } := by
  unfold performCommand
  rw [decode_eq_ok hl.le, hl, List.take_length]

/-- A header's fields, read back from the header put together from them (R81). -/
theorem mkHeader_fields (op : BitVec 4) (a b : Byte) (n : Nat) (hn : n < 4096) :
    hdrOp (mkHeader op a b n) = op ∧ hdrA (mkHeader op a b n) = a ∧ hdrB (mkHeader op a b n) = b ∧
      hdrN (mkHeader op a b n) = n := by
  have hop : hdrOp (mkHeader op a b n) = op := by
    apply BitVec.eq_of_getLsbD_eq
    intro i hi
    simp only [hdrOp, mkHeader, BitVec.getLsbD_extractLsb', BitVec.getLsbD_append]
    interval_cases i <;> simp
  have ha : hdrA (mkHeader op a b n) = a := by
    apply BitVec.eq_of_getLsbD_eq
    intro i hi
    simp only [hdrA, mkHeader, BitVec.getLsbD_extractLsb', BitVec.getLsbD_append]
    interval_cases i <;> simp
  have hb : hdrB (mkHeader op a b n) = b := by
    apply BitVec.eq_of_getLsbD_eq
    intro i hi
    simp only [hdrB, mkHeader, BitVec.getLsbD_extractLsb', BitVec.getLsbD_append]
    interval_cases i <;> simp
  have hm : (mkHeader op a b n).extractLsb' 0 12 = BitVec.ofNat 12 n := by
    apply BitVec.eq_of_getLsbD_eq
    intro i hi
    simp only [mkHeader, BitVec.getLsbD_extractLsb', BitVec.getLsbD_append]
    interval_cases i <;> simp
  refine ⟨hop, ha, hb, ?_⟩
  unfold hdrN
  rw [hm, BitVec.toNat_ofNat, Nat.mod_eq_of_lt (by omega)]

/-- A header's fields as numbers (R81). -/
theorem header_fields_toNat (h : Word) : (hdrOp h).toNat = h.toNat / 2 ^ 28 ∧
    hdrA h = BitVec.ofNat 8 (h.toNat / 2 ^ 20 % 256) ∧ hdrB h = BitVec.ofNat 8 (h.toNat / 2 ^ 12 % 256) ∧
      hdrN h = h.toNat % 4096 := by
  have hlt := h.isLt
  refine ⟨?_, ?_, ?_, ?_⟩
  · simp [hdrOp, BitVec.extractLsb'_toNat, Nat.shiftRight_eq_div_pow]; omega
  · apply BitVec.eq_of_toNat_eq; simp [hdrA, BitVec.extractLsb'_toNat, Nat.shiftRight_eq_div_pow]
  · apply BitVec.eq_of_toNat_eq; simp [hdrB, BitVec.extractLsb'_toNat, Nat.shiftRight_eq_div_pow]
  · simp [hdrN, BitVec.extractLsb'_toNat]

/-- A response word as a number: its status in bits 15:12 and its count in bits 11:0 (R84). -/
theorem responseWord_eq (st : Status) (n : Nat) (hn : n < 4096) :
    responseWord st n = BitVec.ofNat 32 (st.code.toNat * 4096 + n) := by
  apply BitVec.eq_of_toNat_eq
  have hst : st.code.toNat < 16 := st.code.isLt
  simp only [responseWord, BitVec.toNat_append, BitVec.toNat_ofNat]
  rw [← Nat.shiftLeft_add_eq_or_of_lt (by omega), ← Nat.shiftLeft_add_eq_or_of_lt (by omega)]
  simp [Nat.shiftLeft_eq]
  omega

end Sys2Proof.Machine
end

