-- ==== Sys2Proof/Laws/Maps.lean ====
section
/-! SUPPORT. What valid maps give: distinct pins, and the shape of a frame built from them. -/

namespace Sys2Proof.Machine

/-- A position below 20 has a pin (R13). -/
theorem posPin_of_lt {s : State} {p : Nat} (h : p < 20) : posPin s p = .ok s.posMap[p] := by
  rw [posPin_eq_ok]; simp [h]

/-- The pin of a position is its entry of `POSMAP`, which has 20 (R13). -/
theorem posPin_entry {s : State} {p : Nat} {pin : Pin} (h : posPin s p = .ok pin) : ∃ hp : p < 20, s.posMap[p] = pin := by
  rw [posPin_eq_ok, Vector.getElem?_eq_some_iff] at h
  exact h

/-- A SegmentMap pin is one of the valid pins. -/
theorem isSegPin_mem {s : State} (hn : s.nseg.toNat ≤ 20) {j : Nat} (h : isSegPin s j) :
    ∃ pin ∈ s.segMap.toList.take s.nseg.toNat, pin.toNat = j := by
  obtain ⟨i, hi, hj⟩ := h
  have h20 : i < 20 := by omega
  simp only [segPin, h20, Vector.getElem?_eq_getElem, Option.getD_some] at hj
  refine ⟨s.segMap[i], ?_, hj⟩
  rw [List.mem_take_iff_getElem]
  exact ⟨i, by simp; omega, by simp⟩

/-- A PositionMap pin is one of the valid pins. -/
theorem posPin_mem {s : State} {p : Nat} {pin : Pin} (hp : p < s.ndig.toNat) (h : posPin s p = .ok pin) :
    pin ∈ s.posMap.toList.take s.ndig.toNat := by
  obtain ⟨h20, rfl⟩ := posPin_entry h
  rw [List.mem_take_iff_getElem]
  exact ⟨p, by simp; omega, by simp⟩

/-- No SegmentMap pin is a PositionMap pin (R13). -/
theorem posPin_ne_segPin {s : State} (hm : MapsValid s) {j p : Nat} {pin : Pin} (h : isSegPin s j) (hp : p < s.ndig.toNat)
    (hpin : posPin s p = .ok pin) : pin.toNat ≠ j := by
  obtain ⟨-, -, hsum, -, hd⟩ := hm
  obtain ⟨seg, hmem, hj⟩ := isSegPin_mem (by omega) h
  rw [validPins, List.nodup_append] at hd
  intro he
  exact hd.2.2 _ hmem _ (posPin_mem hp hpin) (BitVec.eq_of_toNat_eq (by rw [hj, he]))

/-- Two positions with the same pin are the same position (R13). -/
theorem posPin_inj {s : State} (hm : MapsValid s) {p q : Nat} {pin : Pin} (hp : p < s.ndig.toNat) (hq : q < s.ndig.toNat)
    (h1 : posPin s p = .ok pin) (h2 : posPin s q = .ok pin) : p = q := by
  obtain ⟨hp20, h1⟩ := posPin_entry h1
  obtain ⟨hq20, h2⟩ := posPin_entry h2
  have hd := hm.2.2.2.2
  rw [validPins, List.nodup_append] at hd
  exact (List.Nodup.getElem_inj_iff hd.2.1 (i := p) (hi := by simp; omega) (j := q) (hj := by simp; omega)).mp
    (by simp [h1, h2])

/-- A PositionMap pin is one of OUT0 to OUT19 (R13). -/
theorem posPin_le {s : State} (hm : MapsValid s) {p : Nat} {pin : Pin} (hp : p < s.ndig.toNat) (h : posPin s p = .ok pin) :
    pin.toNat ≤ 19 :=
  hm.2.2.2.1 _ (by rw [validPins, List.mem_append]; exact .inr (posPin_mem hp h))

/-- A bit of a select bit. -/
theorem getLsbD_selectBit (n j : Nat) : ((1#24 <<< n).getLsbD j = true) ↔ j < 24 ∧ n = j := by
  by_cases h : n = j
  · subst h; simp
  · simp only [BitVec.getLsbD_shiftLeft, BitVec.getLsbD_one]; simp; omega

/-- A select bit, with or without segment pins, has the shape of a frame (R168 (a)). -/
theorem frameShape_of_pins {s : State} (hm : MapsValid s) {p : Nat} {pin : Pin} (hp : p < s.ndig.toNat)
    (hpin : posPin s p = .ok pin) (m : PinMask) (hseg : ∀ j, m.getLsbD j = true → isSegPin s j) (f : Frame)
    (hf : f = (1#24 <<< pin.toNat) ||| m.setWidth 24 ∨ f = 1#24 <<< pin.toNat) : FrameShape s p f := by
  have hle := posPin_le hm hp hpin
  have hbit : ∀ j, f.getLsbD j = true → pin.toNat = j ∨ m.getLsbD j = true := by
    intro j hj
    rcases hf with rfl | rfl
    · rw [BitVec.getLsbD_or, Bool.or_eq_true] at hj
      rcases hj with hj | hj
      · exact .inl ((getLsbD_selectBit _ _).mp hj).2
      · rw [BitVec.getLsbD_setWidth] at hj; simp at hj; exact .inr hj.2
    · exact .inl ((getLsbD_selectBit _ _).mp hj).2
  have hsel : f.getLsbD pin.toNat = true := by
    have h1 : (1#24 <<< pin.toNat).getLsbD pin.toNat = true := (getLsbD_selectBit _ _).mpr ⟨by omega, rfl⟩
    rcases hf with rfl | rfl
    · rw [BitVec.getLsbD_or, h1]; rfl
    · exact h1
  refine ⟨fun j hj => ?_, fun pin' h' => ?_, fun q pin' hq hqp hq' => ?_, fun j hj => ?_⟩
  · by_contra hc
    rcases hbit j (by simpa using hc) with h | h
    · omega
    · rw [BitVec.getLsbD_of_ge m j hj] at h; cases h
  · rw [hpin] at h'; cases h'; exact hsel
  · by_contra hc
    rcases hbit _ (by simpa using hc) with h | h
    · have : pin = pin' := BitVec.eq_of_toNat_eq h
      subst this
      exact hqp (posPin_inj hm hq hp hq' hpin)
    · exact posPin_ne_segPin hm (hseg _ h) hq hq' rfl
  · rcases hbit j hj with h | h
    · exact .inl ⟨pin, hpin, h⟩
    · exact .inr (hseg j h)

/-- A frame that the walk builds has its shape (R168 (a)). -/
theorem buildFrame_shape {s : State} (hm : MapsValid s) {w : WalkPlan} {p k k' : Nat} {f : Frame} (hp : p < s.ndig.toNat)
    (h : buildFrame s w p k = .ok (f, k')) : FrameShape s p f := by
  obtain ⟨pin, hpin, ⟨-, rfl, -⟩ | ⟨-, m, ht, rfl⟩⟩ := buildFrame_cases h
  · exact frameShape_of_pins hm hp hpin 0 (by simp) _ (.inr rfl)
  · refine frameShape_of_pins hm hp hpin m (fun j hj => takeCharacter_segPins ht hj) _ ?_
    split <;> simp

/-- The shape of a frame depends on the maps and the counts alone. -/
theorem FrameShape.of_maps {s t : State} (h1 : t.segMap = s.segMap) (h2 : t.posMap = s.posMap) (h3 : t.nseg = s.nseg)
    (h4 : t.ndig = s.ndig) {p : Nat} {f : Frame} (h : FrameShape s p f) : FrameShape t p f := by
  have e1 : ∀ q, posPin t q = posPin s q := fun q => by unfold posPin; rw [h2]
  have e2 : ∀ j, isSegPin t j ↔ isSegPin s j := fun j => by unfold isSegPin segPin; rw [h1, h3]
  refine ⟨h.1, fun pin hp => h.2.1 pin (e1 p ▸ hp), fun q pin hq hqp hpin => h.2.2.1 q pin (h4 ▸ hq) hqp (e1 q ▸ hpin), ?_⟩
  intro j hj
  rcases h.2.2.2 j hj with ⟨pin, hp, hpj⟩ | h
  · exact .inl ⟨pin, (e1 p).symm ▸ hp, hpj⟩
  · exact .inr ((e2 j).mpr h)

end Sys2Proof.Machine
end

