-- ==== Sys2Proof/Laws/PerInstr.lean ====
section
/-! SUPPORT. Statements made per instruction: the family RoundTrip (LAWS.json). -/

namespace Sys2Proof.Laws

/-- A well-formed command is read back from its own header and payload, whatever bytes follow (R81 to R83). -/
def RoundTrip.Statement (i : Instr) : Prop :=
  i.wf = true → ∀ rest, decode (encode i).1 ((encode i).2 ++ rest) = .ok (i, rest)

/-- The round trip of a command, from what the decoder makes of its header. -/
theorem roundTrip_of_header {i : Instr} (hn : hdrN (encode i).1 = (encode i).2.length)
    (hi : decodeCommand (encode i).1 (encode i).2 = i) (rest : List Byte) :
    decode (encode i).1 ((encode i).2 ++ rest) = .ok (i, rest) := by
  rw [Machine.decode_eq_ok (by simp [hn]), hn, List.take_left, List.drop_left, hi]

theorem RoundTrip.setup (a b : Byte) (pl : List Byte) : RoundTrip.Statement (.setup a b pl) := by
  intro hwf rest
  have hl : pl.length < 4096 := Nat.lt_succ_of_le (of_decide_eq_true hwf)
  obtain ⟨ho, ha, hb, hn⟩ := Machine.mkHeader_fields 0x1 a b pl.length hl
  exact roundTrip_of_header (by simp only [encode, hn]) (by simp only [encode, decodeCommand, ho, ha, hb]; rfl) rest

theorem RoundTrip.setText (a b : Byte) (txt : List Byte) : RoundTrip.Statement (.setText a b txt) := by
  intro hwf rest
  have hl : txt.length < 4096 := Nat.lt_succ_of_le (of_decide_eq_true hwf)
  obtain ⟨ho, ha, hb, hn⟩ := Machine.mkHeader_fields 0x2 a b txt.length hl
  exact roundTrip_of_header (by simp only [encode, hn]) (by simp only [encode, decodeCommand, ho, ha, hb]; rfl) rest

theorem RoundTrip.setTextAlign (a : Align) : RoundTrip.Statement (.setTextAlign a) := by
  intro _ rest
  cases a <;> exact roundTrip_of_header (by decide) (by decide) rest

theorem RoundTrip.setTextEffect (e : Effect) (c : Byte) : RoundTrip.Statement (.setTextEffect e c) := by
  intro _ rest
  obtain ⟨ho, ha, hb, hn⟩ := Machine.mkHeader_fields 0x4 e.code c 0 (by omega)
  refine roundTrip_of_header (by simp only [encode, hn, List.length_nil]) ?_ rest
  simp only [encode, decodeCommand, ho, ha, hb]
  cases e <;> rfl

theorem RoundTrip.scrollLeft : RoundTrip.Statement .scrollLeft := by
  intro _ rest
  exact roundTrip_of_header (by decide) (by decide) rest

theorem RoundTrip.setDemoMode (m : DemoMode) (c : Byte) : RoundTrip.Statement (.setDemoMode m c) := by
  intro _ rest
  obtain ⟨ho, ha, hb, hn⟩ := Machine.mkHeader_fields 0x6 m.code c 0 (by omega)
  refine roundTrip_of_header (by simp only [encode, hn, List.length_nil]) ?_ rest
  simp only [encode, decodeCommand, ho, ha, hb]
  cases m <;> rfl

theorem RoundTrip.print (p : Byte) (txt : List Byte) : RoundTrip.Statement (.print p txt) := by
  intro hwf rest
  have hl : txt.length < 4096 := Nat.lt_succ_of_le (of_decide_eq_true hwf)
  obtain ⟨ho, ha, hb, hn⟩ := Machine.mkHeader_fields 0x7 p 0 txt.length hl
  exact roundTrip_of_header (by simp only [encode, hn]) (by simp only [encode, decodeCommand, ho, ha]; rfl) rest

theorem RoundTrip.reserved0 : RoundTrip.Statement .reserved0 := by
  intro _ rest
  exact roundTrip_of_header (by decide) (by decide) rest

theorem RoundTrip.reserved8 : RoundTrip.Statement .reserved8 := by
  intro _ rest
  exact roundTrip_of_header (by decide) (by decide) rest

theorem RoundTrip.reserved9 : RoundTrip.Statement .reserved9 := by
  intro _ rest
  exact roundTrip_of_header (by decide) (by decide) rest

theorem RoundTrip.reservedA : RoundTrip.Statement .reservedA := by
  intro _ rest
  exact roundTrip_of_header (by decide) (by decide) rest

theorem RoundTrip.reservedB : RoundTrip.Statement .reservedB := by
  intro _ rest
  exact roundTrip_of_header (by decide) (by decide) rest

theorem RoundTrip.reservedC : RoundTrip.Statement .reservedC := by
  intro _ rest
  exact roundTrip_of_header (by decide) (by decide) rest

theorem RoundTrip.reservedD : RoundTrip.Statement .reservedD := by
  intro _ rest
  exact roundTrip_of_header (by decide) (by decide) rest

theorem RoundTrip.reservedE : RoundTrip.Statement .reservedE := by
  intro _ rest
  exact roundTrip_of_header (by decide) (by decide) rest

theorem RoundTrip.reservedF : RoundTrip.Statement .reservedF := by
  intro _ rest
  exact roundTrip_of_header (by decide) (by decide) rest

end Sys2Proof.Laws
end

