-- ==== Sys2Proof/Laws/Rebuild.lean ====
section
/-! SUPPORT. What REBUILD depends on: two states that agree on what it reads get the same frames. -/

namespace Sys2Proof.Machine

/-- Agreement on everything REBUILD reads (R160: "Reads ..."), the parameters included. -/
structure SameReads (s t : State) : Prop where
  cfg : t.cfg = s.cfg
  nseg : t.nseg = s.nseg
  ndig : t.ndig = s.ndig
  segMap : t.segMap = s.segMap
  posMap : t.posMap = s.posMap
  text : t.text = s.text
  textLen : t.textLen = s.textLen
  startPos : t.startPos = s.startPos
  maxPos : t.maxPos = s.maxPos
  visibleIdx : t.visibleIdx = s.visibleIdx
  visibleLen : t.visibleLen = s.visibleLen
  effect : t.effect = s.effect
  blinkOn : t.blinkOn = s.blinkOn
  demoMode : t.demoMode = s.demoMode
  demoIdx : t.demoIdx = s.demoIdx

variable {s t : State}

theorem SameReads.sourceRead (h : SameReads s t) (k : Nat) : sourceRead t k = sourceRead s k := by
  simp only [Machine.sourceRead, textRead, h.demoMode, h.text, h.textLen]

theorem SameReads.glyph (h : SameReads s t) (c : Byte) : glyph t c = glyph s c := by simp only [Machine.glyph, h.cfg]

theorem SameReads.litPins (h : SameReads s t) (g : Glyph) (n : Nat) : litPins t g n = litPins s g n := by
  induction n with
  | zero => rfl
  | succ n ih => simp only [Machine.litPins, ih, segPin, h.segMap]

theorem SameReads.encodePins (h : SameReads s t) (c : Byte) : encodePins t c = encodePins s c := by
  simp only [Machine.encodePins, h.litPins, h.glyph, h.nseg, h.cfg]

theorem SameReads.isDpOnly (h : SameReads s t) (c : Byte) : isDpOnly t c = isDpOnly s c := by
  simp only [Machine.isDpOnly, h.glyph, h.cfg]

theorem SameReads.takeCharacter (h : SameReads s t) (k stop : Nat) : takeCharacter t k stop = takeCharacter s k stop := by
  simp only [Machine.takeCharacter, h.encodePins, h.isDpOnly, h.sourceRead]

theorem SameReads.buildFrame (h : SameReads s t) (w : WalkPlan) (p k : Nat) : buildFrame t w p k = buildFrame s w p k := by
  simp only [Machine.buildFrame, blankFrame, posPin, h.takeCharacter, h.posMap]

theorem SameReads.buildFrames (h : SameReads s t) (w : WalkPlan) (n p k : Nat) (f : FrameFile) :
    buildFrames t w n p k f = buildFrames s w n p k f := by
  induction n generalizing p k f with
  | zero => rfl
  | succ n ih => simp only [Machine.buildFrames, h.buildFrame, ih]

theorem SameReads.walkPlan (h : SameReads s t) : walkPlan t = walkPlan s := by
  simp only [Machine.walkPlan, h.demoMode, h.ndig, h.demoIdx, h.startPos, h.maxPos, h.visibleIdx, h.visibleLen, segmentsShown,
    h.effect, h.blinkOn]

/-- States that agree on what REBUILD reads, and on the frame buffer, get the same frame buffer from it. -/
theorem SameReads.rebuild {u : State} (h : SameReads s t) (hf : t.frame = s.frame) (hr : rebuild s = .ok u) :
    rebuild t = .ok { t with frame := u.frame, contentChanged := false } := by
  obtain ⟨f, hb, rfl⟩ := rebuild_eq_ok.mp hr
  exact rebuild_eq_ok.mpr ⟨f, by rw [h.walkPlan, h.buildFrames, h.ndig, hf]; exact hb, rfl⟩

end Sys2Proof.Machine
end

