-- ==== Sys2Proof/Laws/Run.lean ====
section
/-! SUPPORT. Steps and runs: which micro-step a step is, and how runs of several steps compose. -/

namespace Sys2Proof.Machine

/-- One step of a run. -/
theorem run_succ {n : Nat} {s t : State} (h : step s = .next t) :
    Host.Core.run Sys2Proof.core (n + 1) s = Host.Core.run Sys2Proof.core n t := by
  have hc : Sys2Proof.core.step s = .next t := h
  simp only [Host.Core.run, hc]

/-- A run of one step. -/
theorem run_one (s : State) : Host.Core.run Sys2Proof.core 1 s = step s := by
  have hc : Sys2Proof.core.step s = step s := rfl
  simp only [Host.Core.run]
  rw [hc]
  cases step s <;> rfl

/-- A run continues where its first part ended. -/
theorem run_add {m n : Nat} {s t : State} (h : Host.Core.run Sys2Proof.core m s = .next t) :
    Host.Core.run Sys2Proof.core (m + n) s = Host.Core.run Sys2Proof.core n t := by
  induction m generalizing s with
  | zero => cases h; simp
  | succ m ih =>
    have hc : Sys2Proof.core.step s = step s := rfl
    rw [show m + 1 + n = (m + n) + 1 by omega]
    simp only [Host.Core.run] at h ⊢
    rw [hc] at h ⊢
    cases hs : step s with
    | next u => simp only [hs] at h ⊢; exact ih h
    | fault e => simp [hs] at h
    | refused e => simp [hs] at h

/-- Where the FSM's micro-step is next, the step is that micro-step, past the event that named it (R58, R180). -/
theorem step_of_microNext {s : State} (h : microNext s) : step s = microStep { s with events := s.events.tail } := by
  simp only [step, nextStep]
  rcases h with h | h
  · rw [h]; simp only [List.tail_nil]
    have : s = { s with events := [] } := by cases s; simp_all
    exact congrArg _ this
  · cases he : s.events with
    | nil => simp [he] at h
    | cons e rest => simp [he] at h; subst h; rfl

/-- With no event waiting the step is the micro-step (R180). -/
theorem step_of_no_event {s : State} (h : s.events = []) : step s = microStep s := by
  simp only [step, nextStep, h]

theorem microStep_advance {s : State} (h : s.fsm = .advance) : microStep s = microAdvance s := by unfold microStep; rw [h]
theorem microStep_rebuild {s : State} (h : s.fsm = .rebuild) : microStep s = microRebuild s := by unfold microStep; rw [h]
theorem microStep_txLow {s : State} (h : s.fsm = .txLow) : microStep s = microTxLow s := by unfold microStep; rw [h]
theorem microStep_txShift {s : State} (h : s.fsm = .txShift) : microStep s = microTxShift s := by unfold microStep; rw [h]
theorem microStep_txHigh {s : State} (h : s.fsm = .txHigh) : microStep s = microTxHigh s := by unfold microStep; rw [h]

/-- The rest of a trace is read from where its first part ended (R190 (a)). -/
theorem scanTrace_append (a b : List SerialEvent) : ∀ o r, scanTrace o a = some r → scanTrace o (a ++ b) = scanTrace r b := by
  induction a with
  | nil => intro o r h; cases h; rfl
  | cons e t ih =>
    intro o r h
    cases e with
    | loadLow =>
      simp only [scanTrace, List.cons_append] at h ⊢
      split at h
      · next hh => rw [if_pos hh]; exact ih _ _ h
      · cases h
    | bit b =>
      simp only [scanTrace, List.cons_append] at h ⊢
      cases o with
      | none => cases h
      | some k =>
        simp only at h ⊢
        split at h
        · next hh => rw [if_pos hh]; exact ih _ _ h
        · cases h
    | loadHigh =>
      simp only [scanTrace, List.cons_append] at h ⊢
      split at h
      · next hh => rw [if_pos hh]; exact ih _ _ h
      · cases h

end Sys2Proof.Machine
end

