-- ==== Sys2Proof/Tests/Slice0.lean ====
section
/-! SUPPORT. Tests: words and values from spec/95_test_vectors.md and from the encodings, and for each statement with hypotheses a
state that meets them (`witness_<statement>`). -/

namespace Sys2Proof.Tests

open Sys2Proof.Machine

set_option maxRecDepth 8000

/-! Well-formedness: a payload longer than `N` can say (R81) is the one ill-formed command -/

theorem test_wf_refuses_4096_bytes :
    (Instr.setText 0 3 (List.replicate 4096 0x41)).wf = false ∧ (Instr.print 0 (List.replicate 4096 0x41)).wf = false ∧
      (Instr.setup 1 1 (List.replicate 4096 0)).wf = false := by
  simp only [Instr.wf, Instr.payload, List.length_replicate]; decide

theorem test_wf_allows_4095_bytes : (Instr.setText 0 3 (List.replicate 4095 0x41)).wf = true := by
  simp only [Instr.wf, Instr.payload, List.length_replicate]; decide

/-! Decoding: words written out from the format `OP[31:28] A[27:20] B[19:12] N[11:0]` (R81, R83, V2) -/

theorem test_decode_setup :
    decode 0b0001_00000011_00000001_000000000100#32 [0x0C, 0x04, 0x09, 0x13] = .ok (.setup 3 1 [0x0C, 0x04, 0x09, 0x13], []) := by
  decide
theorem test_decode_setText :
    decode 0b0010_00000001_00000010_000000000011#32 [0x41, 0x2E, 0x42, 0xFF] = .ok (.setText 1 2 [0x41, 0x2E, 0x42], [0xFF]) := by
  decide
theorem test_decode_setTextAlign :
    decode 0b0011_00000010_00000000_000000000000#32 [] = .ok (.setTextAlign .right, []) ∧
      decode 0b0011_00000001_00000000_000000000000#32 [] = .ok (.setTextAlign .center, []) ∧
      decode 0b0011_00000011_00000000_000000000000#32 [] = .ok (.setTextAlign .left, []) := by decide
theorem test_decode_setTextEffect :
    decode 0b0100_00000001_00000010_000000000000#32 [] = .ok (.setTextEffect .blink 2, []) ∧
      decode 0b0100_00000010_11111111_000000000000#32 [] = .ok (.setTextEffect .scrollLeft 255, []) ∧
      decode 0b0100_00000011_00000001_000000000000#32 [] = .ok (.setTextEffect .none 1, []) := by decide
theorem test_decode_scrollLeft :
    decode 0b0101_00000000_00000000_000000000000#32 [] = .ok (.scrollLeft, []) ∧
      decode 0b0101_11111111_11111111_000000000001#32 [0x77] = .ok (.scrollLeft, []) := by decide
theorem test_decode_setDemoMode :
    decode 0b0110_00000001_00000001_000000000000#32 [] = .ok (.setDemoMode .scrollFont 1, []) ∧
      decode 0b0110_00000010_00000001_000000000000#32 [] = .ok (.setDemoMode .off 1, []) ∧
      decode 0b0110_11111101_00000000_000000000000#32 [] = .ok (.setDemoMode .scrollFont 0, []) := by decide
theorem test_decode_print :
    decode 0b0111_00000010_00000000_000000000010#32 [0x48, 0x49] = .ok (.print 2 [0x48, 0x49], []) := by decide
theorem test_decode_reserved0 : decode 0b0000_00000000_00000000_000000000000#32 [] = .ok (.reserved0, []) := by decide
theorem test_decode_reserved8 : decode 0b1000_00000000_00000000_000000000000#32 [] = .ok (.reserved8, []) := by decide
theorem test_decode_reserved9 :
    decode 0b1001_00000001_00000010_000000000011#32 [0x01, 0x02, 0x03] = .ok (.reserved9, []) := by decide
theorem test_decode_reservedA : decode 0b1010_00000000_00000000_000000000000#32 [] = .ok (.reservedA, []) := by decide
theorem test_decode_reservedB : decode 0b1011_00000000_00000000_000000000000#32 [] = .ok (.reservedB, []) := by decide
theorem test_decode_reservedC : decode 0b1100_00000000_00000000_000000000000#32 [] = .ok (.reservedC, []) := by decide
theorem test_decode_reservedD : decode 0b1101_00000000_00000000_000000000000#32 [] = .ok (.reservedD, []) := by decide
theorem test_decode_reservedE : decode 0b1110_00000000_00000000_000000000000#32 [] = .ok (.reservedE, []) := by decide
theorem test_decode_reservedF :
    decode 0b1111_11111111_11111111_000000000000#32 [] = .ok (.reservedF, []) := by decide
theorem test_decode_payload_short : decode 0x20003004 [0x31, 0x32] = .error (.payloadShort 4 2) := by decide
theorem test_encode_setText : encode (.setText 0 3 [0x31, 0x32, 0x2E, 0x35]) = (0x20003004, [0x31, 0x32, 0x2E, 0x35]) := by decide
theorem test_table_print : decodeTableWord 32 0x70200002 = some (.print 2 [0, 0]) := by decide
theorem test_table_payload : decodeTableWord 48 0x4948_70200002 = some (.print 2 [0x48, 0x49]) := by decide

/-! Small states -/

/-- The state an outcome goes on with. -/
def after (r : Result) : State :=
  match r with
  | .next s => s
  | .fault _ => State.reset
  | .refused _ => State.reset

/-- Whether an outcome is a next state. -/
def goesOn (r : Result) : Bool :=
  match r with
  | .next _ => true
  | .fault _ => false
  | .refused _ => false

/-- The state after reset and the SETUP of the test configuration `TC` (spec/95_test_vectors.md). -/
def tc : State := { State.reset with
  nseg := 8
  ndig := 4
  segMap := #v[0x0C, 0x04, 0x09, 0x0F, 0x06, 0x0A, 0x02, 0x07, 0, 0, 0, 0, 0, 0, 0, 0, 0, 0, 0, 0]
  posMap := #v[0x13, 0x00, 0x11, 0x03, 0, 0, 0, 0, 0, 0, 0, 0, 0, 0, 0, 0, 0, 0, 0, 0]
  configured := true
  contentChanged := true
  responses := [0] }

/-- `tc` is what the SETUP of `TC` leaves. -/
theorem test_tc :
    exec (.setup 8 4 [0x0C, 0x04, 0x09, 0x0F, 0x06, 0x0A, 0x02, 0x07, 0x13, 0x00, 0x11, 0x03]) State.reset = .next tc := by rfl

/-- `tc` with a text in the whole window. -/
def shows (txt : List Byte) : State := after (exec (.setText 0 3 txt) tc)

/-- `tc` with the text "12.5" (program P1). -/
def tc125 : State := shows [0x31, 0x32, 0x2E, 0x35]

/-- `tc` with the text "HELLO12" and a scroll of `c` cycles (program P2). -/
def tcScroll (c : Byte) : State := after (exec (.setTextEffect .scrollLeft c) (shows [0x48, 0x45, 0x4C, 0x4C, 0x4F, 0x31, 0x32]))

/-- `tc125` with a blink of `c` cycles (program P3). -/
def tcBlink (c : Byte) : State := after (exec (.setTextEffect .blink c) tc125)

/-- `tc125` with its frames built, at the first TX_LOW of a pass. -/
def tcLow : State := after (step { tc125 with fsm := .rebuild })

/-- The reference parameters with the policy `mixed`. -/
def mixedConfig : Config := { refParams with midpass := .mixed, ok := refParams_legal }

/-- `s` with the event `e` next. -/
def State.withEvent (s : State) (e : Event) : State := { s with events := [e] }

/-! Meanings: responses of V2 and V10, effects of the examples -/

theorem test_setup : tc.responses = [0] ∧ tc.nseg = 8 ∧ tc.ndig = 4 ∧ tc.segMap[7] = 7 ∧ tc.posMap[2] = 17 := by decide
theorem test_setup_rejects : (after (exec (.setup 3 2 [1, 2, 3, 3, 4]) State.reset)).responses = [0x2000] ∧
    (after (exec (.setup 2 1 [1, 2, 20]) State.reset)).configured = false := by decide
theorem test_setText : tc125.textLen = 4 ∧ tc125.visibleLen = 4 ∧ cellRead tc125.text 2 = some 0x2E := by decide
theorem test_setText_rejects : (after (exec (.setText 2 1 [0x58, 0x59]) tc)).responses = [0, 0x1000] ∧
    (after (exec (.setText 0 4 [0x58]) tc)).textLen = 0 := by decide
theorem test_align_floors : (after (exec (.setTextAlign .center) (shows [0x41, 0x42, 0x43, 0x44, 0x45, 0x46, 0x47]))).visibleIdx = 1 ∧
    (after (exec (.setTextAlign .right) (shows [0x41, 0x42, 0x43, 0x44, 0x45, 0x46, 0x47]))).visibleIdx = 3 := by decide
theorem test_align_short_text : (after (exec (.setTextAlign .right) (shows [0x41, 0x42, 0x43]))).visibleIdx = 0 := by decide
theorem test_setTextEffect : (tcBlink 2).cyclesLeft = 2 ∧ (tcBlink 2).blinkOn = true ∧ (tcBlink 2).effect = .blink := by decide
theorem test_scrollLeft_wraps : (after (exec .scrollLeft { tcScroll 0 with visibleIdx := 3 })).visibleIdx = 0 := by decide
theorem test_scrollLeft_no_op : (after (exec .scrollLeft { tc125 with contentChanged := false })).contentChanged = false := by decide
theorem test_setDemoMode : (after (exec (.setDemoMode .scrollFont 1) tc125)).demoCyclesLeft = 1 := by decide
theorem test_print : (after (exec (.print 2 [0x48, 0x49]) tc)).responses = [0, 2] ∧
    (after (exec (.print 2 [0x48, 0x49]) tc)).startPos = 2 := by decide
theorem test_print_ignored : (after (exec (.print 4 [0x48, 0x49]) { tc with demoMode := .scrollFont })).responses = [0, 0x3002] := by
  decide
theorem test_reserved : (after (exec .reserved0 tc)).responses = [0, 0x4000] ∧ (after (exec .reservedF tc)).responses = [0, 0x4000] := by
  decide

/-! Encoder (V1), frames (V5, V8, S2) and timer (V6, V7) -/

theorem test_encode_pins : encodePins tc 0x32 = 0x09054 ∧ encodePins tc 0x41 = 0x01654 ∧ encodePins tc 0x2E = 0x00080 ∧
    encodePins tc 0xE9 = 0 := by decide
theorem test_frames_P1 : tcLow.frame.toList.take 4 = [0x080210, 0x0090D5, 0x029604, 0x000008] := by decide
theorem test_frames_no_merge_past_substring :
    (after (step { shows [0x31, 0x2E, 0x32, 0x2E, 0x33, 0x2E, 0x34, 0x2E] with fsm := .rebuild })).frame.toList.take 4 =
      [0x080290, 0x0090D5, 0x020000, 0x000008] := by decide
theorem test_frames_demo : (after (step { tc with fsm := .rebuild, demoMode := .scrollFont, demoIdx := 13 })).frame.toList.take 4 =
    [0x080084, 0x000055, 0x029650, 0x000008] := by decide
theorem test_blink_ends_on : (blinkToggle { tcBlink 2 with blinkOn := false, cyclesLeft := 1 }).effect = .none ∧
    (blinkToggle { tcBlink 2 with blinkOn := false, cyclesLeft := 1 }).blinkOn = true := by decide
theorem test_tick_before_setup : step { State.reset with tickPending := true } = .next State.reset := by rfl
theorem test_first_bit : (after (step (after (step tcLow)))).trace = [.loadLow, .bit false] := by decide
theorem test_assembler : assemble "SET_TEXT_EFFECT" [.name ['B', 'l', 'i', 'n', 'k'], .number 2] = some (.setTextEffect .blink 2) ∧
    assemble "SET_DEMO_MODE" [.name ['s', 'c', 'r', 'o', 'l', 'l', '-', 'f', 'o', 'n', 't'], .number 1] = some (.setDemoMode .off 1) := by
  decide

/-! Witnesses: encoding and the command port -/

theorem witness_DecodeEncodeRoundTrip : (Instr.setText 255 255 (List.replicate 4095 0x41)).wf = true ∧ Instr.scrollLeft.wf = true := by
  simp only [Instr.wf, Instr.payload, List.length_replicate]; decide

/-- Every one of the sixteen opcodes is the `op` of a header with `N = 0`; `A % 4` takes its four values. -/
theorem witness_HeaderDecodesByOpcodeMap :
    (∀ op : Fin 16, (BitVec.ofNat 32 (op * 2 ^ 28)).toNat / 2 ^ 28 = op ∧
      ([] : List Byte).length = (BitVec.ofNat 32 (op * 2 ^ 28)).toNat % 4096) ∧
    (∀ a : Fin 4, (BitVec.ofNat 32 (3 * 2 ^ 28 + a * 2 ^ 20)).toNat / 2 ^ 20 % 256 % 4 = a) ∧
    (List.replicate 4095 (0x41 : Byte)).length = (0x20003FFF : Word).toNat % 4096 := by
  refine ⟨by decide, by decide, ?_⟩
  rw [List.length_replicate]; rfl

/-- The examples of R86, the last number that fits a field, a name in capitals, and a name that is not recognised. -/
theorem witness_AssembledCommandsWellFormed :
    (assemble "SETUP" [.pins [12, 4], .pins [19]] = some (.setup 2 1 [12, 4, 19]) ∧
      assemble "SET_TEXT" [.number 0, .number 255, .text [0x58]] = some (.setText 0 255 [0x58]) ∧
      assemble "PRINT" [.number 2, .text [0x48, 0x49]] = some (.print 2 [0x48, 0x49])) ∧
    assemble "SET_TEXT_ALIGN" [.name ['R', 'I', 'G', 'H', 'T']] = some (.setTextAlign .right) ∧
    assemble "SET_TEXT_ALIGN" [.name ['x']] = some (.setTextAlign .left) ∧
    assemble "SET_TEXT_EFFECT" [.name ['n', 'o', 'n', 'e'], .number 255] = some (.setTextEffect .none 255) := by decide

/-- A command without payload and one of one byte. -/
theorem witness_PortDeliversCommand :
    (tc.port = .idle ∧ ([] : List Byte).length = hdrN 0x50000000 ∧
      (State.withEvent tc (.header 0x50000000)).events = .header 0x50000000 :: (([] : List Byte).map Event.payload ++ [])) ∧
    ([0x58] : List Byte).length = hdrN 0x20303001 := by decide

theorem witness_StepRunsTheDecodedCommand :
    (∃ s : State, s.port = .receiving 0x20303001 [] ∧ s.events = [.payload 0x58]) ∧ ([] : List Byte).length + 1 = hdrN 0x20303001 ∧
    decode 0x20303001 [0x58] = .ok (.setText 3 3 [0x58], []) ∧ hdrN 0x50000000 = 0 ∧ decode 0x50000000 [] = .ok (.scrollLeft, []) ∧
    decodeTableWord 32 0x50000000 = some .scrollLeft :=
  ⟨⟨{ tc with port := .receiving 0x20303001 [], events := [.payload 0x58] }, rfl, rfl⟩, by decide, by decide, by decide, by decide,
    by decide⟩

theorem witness_PortRefusesProtocolErrors :
    step { tc with port := .receiving 0x20303001 [], events := [.header 0x50000000] } = .refused .headerDuringCommand ∧
      step (State.withEvent tc (.payload 0x58)) = .refused .payloadOutsideCommand := ⟨rfl, rfl⟩

/-! Witnesses: commands -/

/-- One command of every constructor, well formed, goes on. -/
theorem witness_ResponseWords :
    ∀ i ∈ [Instr.setup 1 1 [1, 2], .setText 0 3 [0x41], .setTextAlign .left, .setTextEffect .none 0, .scrollLeft,
      .setDemoMode .off 0, .print 0 [0x41], .reserved0, .reserved8, .reserved9, .reservedA, .reservedB, .reservedC, .reservedD,
      .reservedE, .reservedF], i.wf = true ∧ goesOn (exec i tc) = true := by decide

/-- The two extremes of `A + B = 20` (R122). -/
theorem witness_SetupAccepted :
    SetupAllowed State.reset 19 1 ((List.range 20).map (BitVec.ofNat 8)) ∧
      SetupAllowed State.reset 1 19 ((List.range 20).map (BitVec.ofNat 8)) ∧ SetupAllowed State.reset 1 1 [0, 19] :=
  ⟨setupAllowed_iff.mpr (by decide), setupAllowed_iff.mpr (by decide), setupAllowed_iff.mpr (by decide)⟩

/-- One rejected SETUP for each condition of R121, and a second SETUP (V3). -/
theorem witness_SetupRejected :
    ¬SetupAllowed State.reset 3 2 [1, 2, 3, 3, 4] ∧ ¬SetupAllowed State.reset 3 1 [1, 2, 20, 3] ∧
      ¬SetupAllowed State.reset 0 1 [1] ∧ ¬SetupAllowed State.reset 1 0 [1] ∧ ¬SetupAllowed State.reset 2 1 [1, 2, 3, 4] ∧
      ¬SetupAllowed State.reset 12 9 ((List.range 21).map (BitVec.ofNat 8)) ∧ ¬SetupAllowed tc 1 1 [1, 2] := by
  simp only [setupAllowed_iff]; decide

/-- The widest and the last one-digit window. -/
theorem witness_SetTextAccepted : WindowAllowed tc 0 3 ∧ WindowAllowed tc 3 3 ∧ WindowAllowed tc 0 0 := by
  simp only [windowAllowed_iff]; decide

/-- Not configured, start beyond end, end beyond the last digit, a window value above 31 (R77). -/
theorem witness_SetTextRejected :
    ¬WindowAllowed State.reset 0 0 ∧ ¬WindowAllowed tc 2 1 ∧ ¬WindowAllowed tc 0 4 ∧ ¬WindowAllowed tc 0 32 := by
  simp only [windowAllowed_iff]; decide

/-- A text longer than the window, with and without a scroll; one at its length, where `d` is 0. -/
theorem witness_SetTextAlignResult :
    (tc125.startPos.toNat ≤ tc125.maxPos.toNat ∧ tc125.effect ≠ .scrollLeft ∧ (0 : Int) = (tc125.textLen : Int) - (3 - 0 + 1)) ∧
      (tcScroll 0).startPos.toNat ≤ (tcScroll 0).maxPos.toNat ∧ (tcScroll 0).effect = .scrollLeft := by decide

theorem witness_AlignRoundTrip : tc125.effect ≠ .scrollLeft := by decide

/-- No scroll; a step inside the text, at its last place; a wrap without count, with one cycle left, with two. -/
theorem witness_ScrollStepRule :
    (tcScroll 0).startPos.toNat ≤ (tcScroll 0).maxPos.toNat ∧ tc125.effect ≠ .scrollLeft ∧
    ((tcScroll 0).effect = .scrollLeft ∧ 2 + 1 + 4 ≤ (tcScroll 0).textLen ∧ (tcScroll 0).textLen < 3 + 1 + 4 ∧
      (tcScroll 0).cycleNum = 0) ∧
    ((tcScroll 2).cycleNum ≠ 0 ∧ 2 ≤ (tcScroll 2).cyclesLeft.toNat) ∧
    ((tcScroll 1).cycleNum ≠ 0 ∧ (tcScroll 1).cyclesLeft.toNat = 1) := by decide

theorem witness_ScrollLeftResult : tc125.effect ≠ .scrollLeft ∧ (tcScroll 0).effect = .scrollLeft := by decide

/-- The demo runs; a position that is the last, and one past it. -/
theorem witness_PrintResult :
    ({ tc with demoMode := DemoMode.scrollFont } : State).demoMode ≠ .off ∧ tc.demoMode = .off ∧
      WindowAllowed tc 3 (tc.ndig.toNat - 1) ∧ ¬WindowAllowed tc 4 (tc.ndig.toNat - 1) ∧
      ¬WindowAllowed State.reset 0 (State.reset.ndig.toNat - 1) ∧ 2 = min ([0x48, 0x49] : List Byte).length tc.cfg.textCap := by
  simp only [windowAllowed_iff]; decide

theorem witness_ReservedAnswersBadCmd :
    exec .reserved0 tc = .next { tc with responses := tc.responses ++ [0x00004000] } := rfl

/-! Witnesses: reset, encoder, multiplexer -/

/-- A reset in IDLE, and one that cuts a transmission short. -/
theorem witness_ResetEventLeaves :
    (State.withEvent tc .reset).events = [.reset] ∧ tc.load = true ∧ (State.withEvent (after (step tcLow)) .reset).load = false := by
  decide

/-- The first and the last supported code, and the codes beside them. -/
theorem witness_GlyphLookup :
    (0x20 ≤ (0x20 : Byte).toNat ∧ (0x7E : Byte).toNat ≤ 0x7E) ∧ (0x1F : Byte).toNat < 0x20 ∧ 0x7E < (0x7F : Byte).toNat := by decide

theorem tc_mapsValid : MapsValid tc := by unfold MapsValid; decide

theorem witness_EncodePinsBits : MapsValid tc ∧ isPosPin tc 19 := ⟨tc_mapsValid, 0, 19, by decide, by decide, by decide⟩

/-- Text mode with "12.5", with the text lit and with it suppressed; demo mode. -/
theorem witness_RebuildWalk :
    tc125.ndig.toNat ≤ 20 ∧
    (tc125.demoMode = .off ∧ tc125.visibleIdx = 0 ∧ tc125.visibleIdx + tc125.visibleLen = 4 ∧
      ∀ k, k < 4 → textRead tc125 k = .ok (([0x31, 0x32, 0x2E, 0x35] : List Byte)[k]?.getD 0)) ∧
    (({ tcBlink 0 with blinkOn := false } : State).effect = .blink ∧ tc125.effect ≠ .blink) ∧
    ({ tc with demoMode := DemoMode.scrollFont } : State).demoMode = .scrollFont := by decide

theorem tc125_textReadable : TextReadable tc125 := by unfold TextReadable; decide

theorem witness_RebuildFrameShape : MapsValid tc125 ∧ TextReadable tc125 := ⟨by unfold MapsValid; decide, tc125_textReadable⟩

theorem witness_RebuildBlinkOff :
    ∃ s : State, s.ndig.toNat ≤ 20 ∧ TextReadable s ∧ s.demoMode = .off ∧ s.effect = .blink ∧ s.blinkOn = false ∧ 0 < s.ndig.toNat :=
  ⟨{ tcBlink 0 with blinkOn := false }, by decide, by unfold TextReadable; decide, by decide, by decide, rfl, by decide⟩

theorem witness_RebuildIdempotent : ∃ t, rebuild tc125 = .ok t := ⟨_, rebuild_eq_ok.mpr ⟨_, rfl, rfl⟩⟩

/-! Witnesses: timer -/

/-- Each of the three intervals one tick before its end and at its end, and nothing running. -/
theorem witness_AdvanceRule :
    (({ tc with demoMode := .scrollFont, effTimer := 1 } : State).effTimer + 1 < tc.cfg.scrollTicks ∧ tc.cfg.scrollTicks ≤ 2 + 1) ∧
    (tcBlink 0).demoMode = .off ∧ (tcBlink 0).effect = .blink ∧ (tcBlink 0).effTimer + 1 < (tcBlink 0).cfg.blinkHalfTicks ∧
    (tcBlink 0).cfg.blinkHalfTicks ≤ 1 + 1 ∧ (tcScroll 0).effect = .scrollLeft ∧ tc125.effect = .none ∧ tc125.demoMode = .off := by
  decide

theorem witness_BlinkToggleRule :
    (tcBlink 0).blinkOn = true ∧ (tcBlink 0).cycleNum = 0 ∧ ({ tcBlink 2 with blinkOn := false } : State).blinkOn = false ∧
    ((tcBlink 2).cycleNum ≠ 0 ∧ 2 ≤ (tcBlink 2).cyclesLeft.toNat) ∧ (tcBlink 1).cycleNum ≠ 0 ∧ (tcBlink 1).cyclesLeft.toNat = 1 := by
  decide

/-- The last place of the font window (91 + 4 = 95) and the place before it; a count of 0, 1 and 2. -/
theorem witness_DemoStepRule :
    (90 + 1 + tc.ndig.toNat ≤ 95 ∧ 95 < 91 + 1 + tc.ndig.toNat) ∧
    (after (exec (.setDemoMode .scrollFont 0) tc)).demoCycleNum = 0 ∧
    ((after (exec (.setDemoMode .scrollFont 1) tc)).demoCycleNum ≠ 0 ∧
      (after (exec (.setDemoMode .scrollFont 1) tc)).demoCyclesLeft.toNat = 1) ∧
    2 ≤ (after (exec (.setDemoMode .scrollFont 2) tc)).demoCyclesLeft.toNat := by decide

/-- The last tick of a counted blink of two cycles (`2 * 2 * 2 = 8`) and the tick before it, and an endless one. -/
theorem witness_BlinkTimeline :
    tc125.demoMode = .off ∧ exec (.setTextEffect .blink 2) tc125 = .next (tcBlink 2) ∧
    (7 < 2 * (2 : Byte).toNat * tc125.cfg.blinkHalfTicks ∧ 2 * (2 : Byte).toNat * tc125.cfg.blinkHalfTicks ≤ 8) ∧
    exec (.setTextEffect .blink 0) tc125 = .next (tcBlink 0) := ⟨by decide, rfl, by decide, rfl⟩

/-- "HELLO12" in four digits: a round is 4 places of 3 ticks. -/
theorem witness_ScrollTimeline :
    (tcScroll 0).demoMode = .off ∧ (tcScroll 0).startPos.toNat ≤ (tcScroll 0).maxPos.toNat ∧ (tcScroll 0).textLen - 4 + 1 = 4 ∧
    goesOn (exec (.setTextEffect .scrollLeft 1) (tcScroll 0)) = true ∧ 11 < 1 * 4 * (tcScroll 0).cfg.scrollTicks ∧
    1 * 4 * (tcScroll 0).cfg.scrollTicks ≤ 12 := by decide

/-- Four digits: a round is 92 places of 3 ticks. -/
theorem witness_DemoTimeline :
    goesOn (exec (.setDemoMode .scrollFont 1) tc) = true ∧ 96 - tc.ndig.toNat = 92 ∧ 275 < 1 * 92 * tc.cfg.scrollTicks ∧
    1 * 92 * tc.cfg.scrollTicks ≤ 276 := by decide

/-! Witnesses: scheduler -/

theorem witness_TickArrivalStep : (State.withEvent tc .tick).events = [.tick] := rfl

/-- A micro-step with no event waiting, and one that an event orders. -/
theorem witness_microNext : microNext tc ∧ microNext (State.withEvent tc .micro) := ⟨.inl rfl, .inr rfl⟩

theorem witness_IdleMicroStep :
    tc.fsm = .idle ∧ tc.configured = true ∧ tc.tickPending = false ∧ ({ tc with tickPending := true } : State).tickPending = true ∧
      State.reset.configured = false := by decide

theorem witness_AdvanceMicroStep : microNext { tc with fsm := .advance } ∧ ({ tc with fsm := .advance } : State).fsm = .advance :=
  ⟨.inl rfl, rfl⟩

theorem witness_RebuildMicroStep :
    microNext { tc125 with fsm := .rebuild } ∧ tc125.contentChanged = true ∧ (∃ u, rebuild { tc125 with fsm := .rebuild } = .ok u) ∧
      ({ tc125 with contentChanged := false } : State).contentChanged = false :=
  ⟨.inl rfl, by decide, ⟨_, rebuild_eq_ok.mpr ⟨_, rfl, rfl⟩⟩, rfl⟩

theorem witness_TxLowMicroStep : microNext tcLow ∧ tcLow.fsm = .txLow ∧ tcLow.frame[tcLow.digitIdx.toNat]? = some 0x080210 :=
  ⟨.inl (by decide), by decide, by decide⟩

/-- The first and the last bit of a frame. -/
theorem witness_TxShiftMicroStep :
    ∃ s t : State, microNext s ∧ s.fsm = .txShift ∧ s.bitIdx.toNat = 23 ∧ microNext t ∧ t.fsm = .txShift ∧ t.bitIdx.toNat = 0 :=
  ⟨after (step tcLow), { after (step tcLow) with bitIdx := 0 }, .inl (by decide), by decide, by decide, .inl (by decide), by decide,
    rfl⟩

/-- The first position and the last. -/
theorem witness_TxHighMicroStep :
    ∃ s t : State, microNext s ∧ s.fsm = .txHigh ∧ s.digitIdx.toNat = 0 ∧ s.ndig.toNat = 4 ∧ microNext t ∧ t.fsm = .txHigh ∧
      t.digitIdx.toNat = t.ndig.toNat - 1 ∧ t.ndig.toNat ≤ 20 :=
  ⟨{ tcLow with fsm := .txHigh }, { tcLow with fsm := .txHigh, digitIdx := 3 }, .inl (by decide), rfl, by decide, by decide,
    .inl (by decide), rfl, by decide, by decide⟩

theorem witness_FrameTransmission :
    tcLow.events = [] ∧ tcLow.fsm = .txLow ∧ tcLow.frame[tcLow.digitIdx.toNat]? = some 0x080210 := by decide

theorem witness_FramesHeldBetweenRebuilds :
    tcLow.cfg.midpass = .hold ∧ goesOn (step tcLow) = true ∧ tcLow.events.head? ≠ some .reset ∧ tcLow.fsm ≠ .rebuild := by decide

/-- The step that raises the latch line, and a command beside it. -/
theorem witness_OutputsChangeAtLoadHigh :
    goesOn (step { tcLow with fsm := .txHigh }) = true ∧ tcLow.events.head? ≠ some .reset ∧
      goesOn (step (State.withEvent tcLow (.header 0x50000000))) = true := by decide

theorem witness_MidpassPolicyStep :
    ∃ s : State, s.events = [.midpassRebuild] ∧ s.cfg.midpass = .mixed ∧ s.fsm = .txLow ∧ 0 < s.digitIdx.toNat ∧
      s.contentChanged = true ∧ (∃ u, rebuild s = .ok u) ∧ (State.withEvent tcLow .midpassRebuild).cfg.midpass = .hold :=
  ⟨{ tc with cfg := mixedConfig, fsm := .txLow, digitIdx := 1, events := [.midpassRebuild] }, rfl, rfl, rfl, by decide, by decide,
    ⟨_, rebuild_eq_ok.mpr ⟨_, rfl, rfl⟩⟩, by decide⟩

/-! Witnesses: the whole machine -/

/-- A configured state with no text and a pending tick meets the invariants. -/
theorem tcTick_blockInv : BlockInv { tc with tickPending := true } where
  textWf := List.Pairwise.nil
  textFits := by decide
  textHeld := fun k hk => absurd hk (Nat.not_lt_zero k)
  textInBuffer := fun k c h => by cases h
  maps := fun _ => tc_mapsValid
  unconfigured := fun h => by cases h
  window := by decide
  windowOnDisplay := by decide
  visibleLen := by decide
  visible := by decide
  phase := by decide
  cycles := by decide
  demoCycles := by decide
  demoWindow := by decide
  timer := by decide
  digit := by rintro (h | h | h) <;> cases h
  bit := by decide
  shreg := by rintro (h | h) <;> cases h
  latch := ⟨fun h => (by cases h), by rintro (h | h) <;> cases h⟩
  framesShaped := by rintro - (h | h | h | h) <;> cases h
  shifted := fun h => by cases h
  shiftedAll := fun h => by cases h
  port := fun h got hp => by cases hp

theorem witness_InvariantsKept : BlockInv { tc with tickPending := true } ∧ goesOn (step { tc with tickPending := true }) = true :=
  ⟨tcTick_blockInv, by decide⟩

theorem tcTick_framesFresh : FramesFresh { tc with tickPending := true } := fun _ h => by cases h

theorem witness_WholePass :
    ∃ s : State, BlockInv s ∧ FramesFresh s ∧ s.events = [] ∧ s.fsm = .idle ∧ s.tickPending = true ∧ s.configured = true :=
  ⟨{ tc with tickPending := true }, tcTick_blockInv, tcTick_framesFresh, rfl, rfl, rfl, rfl⟩

theorem witness_SerialTraceAlternates :
    ∃ s : State, BlockInv s ∧ scanTrace none s.trace = some (openTransmission s) ∧ goesOn (step s) = true ∧
      s.events.head? ≠ some .reset :=
  ⟨{ tc with tickPending := true }, tcTick_blockInv, rfl, by decide, by decide⟩

theorem witness_StepsComplete :
    ∃ s : State, BlockInv s ∧ (∀ h rest, s.events = .header h :: rest → s.port = .idle) ∧
      ∀ b rest, s.events = .payload b :: rest → s.port ≠ .idle :=
  ⟨{ tc with tickPending := true }, tcTick_blockInv, fun _ _ _ => rfl, fun _ _ h => by cases h⟩

theorem witness_FramesFreshKept : FramesFresh { tc with tickPending := true } ∧ goesOn (step { tc with tickPending := true }) = true :=
  ⟨tcTick_framesFresh, by decide⟩

/-- A configured block, and one that is not: with a tick, and with the last word of a valid SETUP. -/
theorem witness_ConfigurationImmutable :
    (goesOn (step (State.withEvent tc .tick)) = true ∧ tc.configured = true ∧ (State.withEvent tc .tick).events.head? ≠ some .reset) ∧
    (goesOn (step (State.withEvent State.reset .tick)) = true ∧ State.reset.configured = false ∧
      (State.withEvent State.reset .tick).events.head? ≠ some .reset) ∧
    (after (step (State.reset.withFetchWord 48 0x0100_10101002))).configured = true := by
  decide

/-- A read of the text at its length, of a character the buffer does not hold and of the last one it holds; the last entry of FRAME,
and a TX_LOW of the first that it does not have. -/
theorem witness_UnwrittenReadsFault :
    tc125.textLen ≤ 4 ∧ cellRead ({ tc125 with textLen := 5 } : State).text 4 = none ∧
    (3 < tc125.textLen ∧ cellRead tc125.text 3 = some 0x35) ∧ 19 < 20 ∧
    microNext { tcLow with digitIdx := 20 } ∧ ({ tcLow with digitIdx := 20 } : State).fsm = .txLow ∧
    20 ≤ ({ tcLow with digitIdx := 20 } : State).digitIdx.toNat :=
  ⟨by decide, by decide, by decide, by decide, .inl (by decide), by decide, by decide⟩

/-! Witnesses: the devices at the edge -/

/-- The frame of position 0 that shows "1", with its shape. -/
theorem witness_OneDigitLit :
    MapsValid tc ∧ 3 < tc.ndig.toNat ∧ 0 < tc.ndig.toNat ∧ 7 < tc.nseg.toNat ∧ FrameShape tc 0 0x080210 ∧
      ({ tc with chipOut := 0x80210 } : State).chipOut = (0x080210 : Frame).extractLsb' 0 20 := by
  refine ⟨tc_mapsValid, by decide, by decide, by decide, ?_, by decide⟩
  exact frameShape_of_pins tc_mapsValid (by decide) (pin := 19) (by decide) (encodePins tc 0x31)
    (fun j hj => isSegPin_of_encodePins hj) _ (.inl (by decide))

/-- A fraction of one half, zero, and one above 1, each with a write of the duty waiting. -/
theorem witness_BrightnessDuty :
    ∃ s : State, s.events = [.setBrightness ⟨1, 1⟩, .writeDuty] ∧ s.bright.pwmFailed = false ∧ (2 : Int) = (1 : Nat) + 1 ∧
      (Fraction.clamp ⟨1, 1⟩).num * (s.bright.applied.denPred + 1) ≠ s.bright.applied.num * ((Fraction.clamp ⟨1, 1⟩).denPred + 1) ∧
      (Fraction.clamp ⟨3, 1⟩).num * (s.bright.applied.denPred + 1) ≠ s.bright.applied.num * ((Fraction.clamp ⟨3, 1⟩).denPred + 1) ∧
      (0 : Int) ≤ 0 :=
  ⟨{ tc with events := [.setBrightness ⟨1, 1⟩, .writeDuty], bright := { tc.bright with maxDuty := 255 } }, rfl, rfl, by decide,
    by decide, by decide, by decide⟩

/-- The applied fraction again, while another is pending; a failed PWM; a failing `configure` and one that succeeds. -/
theorem witness_BrightnessSkipped :
    (∃ s : State, s.events = [.setBrightness ⟨2, 3⟩] ∧ (0 : Int) < 2 ∧
      (Fraction.clamp ⟨2, 3⟩).num * (s.bright.applied.denPred + 1) = s.bright.applied.num * ((Fraction.clamp ⟨2, 3⟩).denPred + 1)) ∧
    (∃ s : State, s.events = [.writeDuty] ∧ s.bright.pwmFailed = true) ∧
    (State.withEvent tc (.configurePwm 8 0)).events = [.configurePwm 8 0] ∧
    (State.withEvent tc (.configurePwm 8 255)).events = [.configurePwm 8 255] ∧
    (State.withEvent tc (.configurePwm 8 255)).bright.pwmFailed = false :=
  ⟨⟨{ tc with
      events := [.setBrightness ⟨2, 3⟩]
      bright := { tc.bright with applied := ⟨1, 1⟩, fraction := ⟨1, 3⟩, dirty := true } }, rfl, by decide, by decide⟩,
    ⟨{ tc with events := [.writeDuty], bright := { tc.bright with pwmFailed := true } }, rfl, rfl⟩, rfl, rfl, rfl⟩

end Sys2Proof.Tests
end

section
/-! PROOFS. The extra step of `MIDPASS_POLICY` (93 U2; notes/assumptions/20.md). -/

namespace Sys2Proof.Machine

/-- With an event waiting the step takes that event (R226). -/
theorem step_of_event {s : State} {e : Event} {rest : List Event} (h : s.events = e :: rest) :
    step s = takeEvent e { s with events := rest } := by
  simp only [step, nextStep, h]

/-- REBUILD does not read the events that wait (R160). -/
theorem sameReads_setEvents (s : State) (es : List Event) : SameReads s { s with events := es } where
  cfg := rfl
  nseg := rfl
  ndig := rfl
  segMap := rfl
  posMap := rfl
  text := rfl
  textLen := rfl
  startPos := rfl
  maxPos := rfl
  visibleIdx := rfl
  visibleLen := rfl
  effect := rfl
  blinkOn := rfl
  demoMode := rfl
  demoIdx := rfl

/-- REBUILD neither reads nor writes the events that wait, so it commutes with replacing them (R160). -/
theorem rebuild_setEvents {s u : State} (h : rebuild s = .ok u) (es : List Event) :
    rebuild { s with events := es } = .ok { u with events := es } := by
  rw [(sameReads_setEvents s es).rebuild rfl h]
  obtain ⟨f, -, rfl⟩ := rebuild_eq_ok.mp h
  rfl

/-- Under `hold` the extra step is not enabled and does nothing (R5, D24). -/
theorem midpassStep_of_hold {s : State} (h : s.cfg.midpass = .hold) : midpassStep s = .next s :=
  midpassStep_eq_next.mpr (.inl ⟨fun ⟨hmixed, _⟩ => by simp [h] at hmixed, rfl⟩)

/-- Settles O49: the step takes the waiting `midpassRebuild`; under `hold` that is not enabled, and under `mixed` it is the REBUILD
of a state that differs in its events alone. -/
theorem midpassPolicyStep : Obligations.MidpassPolicyStep := by
  intro s rest hev
  rw [step_of_event hev]
  refine ⟨fun hhold => midpassStep_of_hold hhold, fun u hmixed hfsm hdigit hchanged hrebuild => ?_⟩
  exact midpassStep_eq_next.mpr (.inr ⟨⟨hmixed, hfsm, hdigit, hchanged⟩, rebuild_setEvents hrebuild rest⟩)

end Sys2Proof.Machine
end

section
/-! PROOFS. What a step can do: one inversion lemma for the event a step takes, for a micro-step and for a command (R58, R120,
R180). -/

namespace Sys2Proof.Machine

/-- The state with the event that the step takes gone from those that wait. -/
abbrev State.pastEvent (s : State) : State := { s with events := s.events.tail }

/-- What a step can be, by the event it takes (R58, R223). -/
inductive Taken (s : State) : State → Prop
  | micro {t : State} (hnext : microNext s) (hmicro : microStep s.pastEvent = .next t) : Taken s t
  | tick : Taken s (tickArrival s.pastEvent)
  | reset (hhead : s.events.head? = some .reset) : Taken s (resetEvent s.pastEvent)
  | command {i : Instr} {t : State} (hexec : exec i { s.pastEvent with port := .idle } = .next t) : Taken s t
  | receive {h : Word} {got : List Byte} (hmissing : got.length < hdrN h) :
      Taken s { s.pastEvent with port := .receiving h got }
  | midpass {t : State} (hmidpass : midpassStep s.pastEvent = .next t) : Taken s t
  | brightness (b : Brightness) : Taken s { s.pastEvent with bright := b }

/-- A command that is performed is some command's meaning, with the port idle again (R80, R120). -/
theorem performCommand_eq_next {h : Word} {pl : List Byte} {s t : State} (hp : performCommand h pl s = .next t) :
    ∃ i, exec i { s with port := .idle } = .next t := by
  unfold performCommand at hp
  split at hp
  · next i _ _ => exact ⟨i, hp⟩
  · cases hp

/-- A header that is taken either waits for its payload or performs its command (R80). -/
theorem takeHeader_eq_next {h : Word} {s t : State} (ht : takeHeader h s = .next t) :
    (0 < hdrN h ∧ t = { s with port := .receiving h [] }) ∨ ∃ i, exec i { s with port := .idle } = .next t := by
  unfold takeHeader at ht
  split at ht
  · cases ht
  · split at ht
    · exact .inr (performCommand_eq_next ht)
    · next hn => cases ht; exact .inl ⟨by omega, rfl⟩

/-- A payload byte that is taken either leaves bytes missing or performs the command (R80). -/
theorem takePayload_eq_next {b : Byte} {s t : State} (ht : takePayload b s = .next t) :
    (∃ h got, got.length < hdrN h ∧ t = { s with port := .receiving h got }) ∨
      ∃ i, exec i { s with port := .idle } = .next t := by
  unfold takePayload at ht
  split at ht
  · cases ht
  · next h got _ =>
    split at ht
    · next hlt => cases ht; exact .inl ⟨h, got ++ [b], by simpa using hlt, rfl⟩
    · exact .inr (performCommand_eq_next ht)

/-- What a step can be: the FSM's micro-step, or the first event that waits (R58, R226). -/
theorem step_taken {s t : State} (hstep : step s = .next t) : Taken s t := by
  by_cases hmicro : microNext s
  · exact .micro hmicro (by rw [← step_of_microNext hmicro]; exact hstep)
  · cases hev : s.events with
    | nil => exact absurd (.inl hev) hmicro
    | cons e rest =>
      have htail : { s with events := rest } = s.pastEvent := by simp [State.pastEvent, hev]
      rw [step_of_event hev, htail] at hstep
      cases e with
      | micro => exact absurd (.inr (by rw [hev]; rfl)) hmicro
      | tick => cases hstep; exact .tick
      | reset => cases hstep; exact .reset (by rw [hev]; rfl)
      | header w =>
        obtain ⟨hpos, rfl⟩ | ⟨i, hi⟩ := takeHeader_eq_next hstep
        · exact .receive hpos
        · exact .command hi
      | payload b =>
        obtain ⟨h, got, hlt, rfl⟩ | ⟨i, hi⟩ := takePayload_eq_next hstep
        · exact .receive hlt
        · exact .command hi
      | midpassRebuild => exact .midpass hstep
      | configurePwm bits answer => cases hstep; exact .brightness _
      | setBrightness f => cases hstep; exact .brightness _
      | writeDuty => cases hstep; exact .brightness _

/-- What a micro-step can be, by the state of the FSM (R180, R182 to R188). -/
inductive MicroTaken (s : State) : State → Prop
  | wait : MicroTaken s s
  | enter (hfsm : s.fsm = .idle) : MicroTaken s (enterPass s)
  | advance (hfsm : s.fsm = .advance) : MicroTaken s { Machine.advance s with fsm := .rebuild }
  | fresh (hfsm : s.fsm = .rebuild) (hclean : s.contentChanged = false) :
      MicroTaken s { s with digitIdx := 0, fsm := .txLow }
  | rebuild {u : State} (hfsm : s.fsm = .rebuild) (hchanged : s.contentChanged = true) (hrebuild : Machine.rebuild s = .ok u) :
      MicroTaken s { u with digitIdx := 0, fsm := .txLow }
  | txLow {f : Frame} (hfsm : s.fsm = .txLow) (hframe : s.frame[s.digitIdx.toNat]? = some f) :
      MicroTaken s { s with trace := s.trace ++ [.loadLow], load := false, shreg := f, bitIdx := 23, fsm := .txShift }
  | txShift (hfsm : s.fsm = .txShift) :
      MicroTaken s { s with
        trace := s.trace ++ [.bit (s.shreg.getLsbD s.bitIdx.toNat)]
        chipSr := chipShift s.chipSr (.bit (s.shreg.getLsbD s.bitIdx.toNat))
        din := s.shreg.getLsbD s.bitIdx.toNat
        bitIdx := if s.bitIdx = 0 then s.bitIdx else s.bitIdx - 1
        fsm := if s.bitIdx = 0 then .txHigh else s.fsm }
  | txHigh (hfsm : s.fsm = .txHigh) :
      MicroTaken s { s with
        trace := s.trace ++ [.loadHigh]
        chipOut := s.chipSr
        load := true
        digitIdx := if s.digitIdx.toNat + 1 = s.ndig.toNat then s.digitIdx else s.digitIdx + 1
        fsm := if s.digitIdx.toNat + 1 = s.ndig.toNat then .idle else .txLow }

/-- What a micro-step can be. -/
theorem microStep_taken {s t : State} (hmicro : microStep s = .next t) : MicroTaken s t := by
  cases hfsm : s.fsm with
  | idle =>
    rw [microStep_eq, hfsm] at hmicro
    cases hmicro
    split
    · exact .enter hfsm
    · exact .wait
  | advance =>
    rw [microStep_advance hfsm] at hmicro
    cases hmicro
    exact .advance hfsm
  | rebuild =>
    rw [microStep_rebuild hfsm, microRebuild_eq_next] at hmicro
    obtain ⟨hclean, rfl⟩ | ⟨hchanged, u, hu, rfl⟩ := hmicro
    · exact .fresh hfsm hclean
    · exact .rebuild hfsm hchanged hu
  | txLow =>
    rw [microStep_txLow hfsm, microTxLow_eq_next] at hmicro
    obtain ⟨f, hf, rfl⟩ := hmicro
    exact .txLow hfsm hf
  | txShift =>
    rw [microStep_txShift hfsm, microTxShift_eq] at hmicro
    cases hmicro
    exact .txShift hfsm
  | txHigh =>
    rw [microStep_txHigh hfsm, microTxHigh_eq] at hmicro
    cases hmicro
    exact .txHigh hfsm

/-- What a command can do to the registers, its response left out (R120 to R141, R221): nothing where it is rejected or ignored. -/
inductive CommandEffect (s : State) : Instr → State → Prop
  | rejected (i : Instr) : CommandEffect s i s
  | setup {a b : Byte} {pl : List Byte} (hvalid : setupValid s a b pl = true) :
      CommandEffect s (.setup a b pl) { s with
        nseg := a.setWidth 5
        ndig := b.setWidth 5
        segMap := writeMap s.segMap 0 (pl.take a.toNat)
        posMap := writeMap s.posMap 0 (pl.drop a.toNat)
        configured := true
        contentChanged := true }
  | place (i : Instr) {first last : BitVec 5} (txt : List Byte)
      (hvalid : windowValid s first.toNat last.toNat = true) : CommandEffect s i (placeText first last txt s)
  | align (a : Align) :
      CommandEffect s (.setTextAlign a) { s with
        align := a
        visibleIdx := if s.effect = .scrollLeft then s.visibleIdx else alignedIdx s a
        contentChanged := true }
  | effect (e : Effect) (cycles : Byte) :
      CommandEffect s (.setTextEffect e cycles) { s with
        effect := e
        cycleNum := cycles
        cyclesLeft := cycles
        blinkOn := true
        effTimer := 0
        visibleIdx := if e = .scrollLeft then 0 else s.visibleIdx
        contentChanged := true }
  | scroll : CommandEffect s .scrollLeft (scrollStep s)
  | demo (m : DemoMode) (cycles : Byte) :
      CommandEffect s (.setDemoMode m cycles) { s with
        demoMode := m
        demoCycleNum := cycles
        demoCyclesLeft := cycles
        demoIdx := 0
        effTimer := 0
        contentChanged := true }

/-- A valid window's positions fit the 5-bit registers they are stored in (R77, R125). -/
theorem windowValid_setWidth {s : State} {a b : Byte} (h : windowValid s a.toNat b.toNat = true) :
    windowValid s (a.setWidth 5).toNat (b.setWidth 5).toNat = true := by
  have hb : b.toNat < 32 := by have := (windowValid_iff.mp h).2.2.1; omega
  have ha : a.toNat < 32 := by have := (windowValid_iff.mp h).2.1; omega
  rwa [BitVec.toNat_setWidth, BitVec.toNat_setWidth, Nat.mod_eq_of_lt ha, Nat.mod_eq_of_lt hb]

/-- A valid window of PRINT ends at the last digit's register value (R141). -/
theorem windowValid_lastDigit {s : State} {p : Byte} (h : windowValid s p.toNat (s.ndig.toNat - 1) = true) :
    windowValid s (p.setWidth 5).toNat (s.ndig - 1).toNat = true := by
  obtain ⟨-, hle, hlt, -⟩ := windowValid_iff.mp h
  have hlast : (s.ndig - 1).toNat = s.ndig.toNat - 1 := by bv_omega
  rw [hlast, BitVec.toNat_setWidth, Nat.mod_eq_of_lt (by omega)]
  exact h

/-- What a command can do (R120): its effect on the registers, and one response. -/
theorem exec_effect {i : Instr} {s t : State} (hexec : exec i s = .next t) :
    ∃ u st n, CommandEffect s i u ∧ t = u.respond st n := by
  cases i with
  | setup a b pl =>
    simp only [exec, execSetup] at hexec
    split at hexec
    · next hvalid => cases hexec; exact ⟨_, _, _, .setup hvalid, rfl⟩
    · cases hexec; exact ⟨_, _, _, .rejected _, rfl⟩
  | setText a b txt =>
    simp only [exec, execSetText] at hexec
    split at hexec
    · next hvalid => cases hexec; exact ⟨_, _, _, .place _ txt (windowValid_setWidth hvalid), rfl⟩
    · cases hexec; exact ⟨_, _, _, .rejected _, rfl⟩
  | print p txt =>
    simp only [exec, execPrint] at hexec
    split at hexec
    · cases hexec; exact ⟨_, _, _, .rejected _, rfl⟩
    · split at hexec
      · next hvalid => cases hexec; exact ⟨_, _, _, .place _ txt (windowValid_lastDigit hvalid), rfl⟩
      · cases hexec; exact ⟨_, _, _, .rejected _, rfl⟩
  | setTextAlign a => cases hexec; exact ⟨_, _, _, .align a, rfl⟩
  | setTextEffect e cycles => cases hexec; exact ⟨_, _, _, .effect e cycles, rfl⟩
  | scrollLeft => cases hexec; exact ⟨_, _, _, .scroll, rfl⟩
  | setDemoMode m cycles => cases hexec; exact ⟨_, _, _, .demo m cycles, rfl⟩
  | reserved0 | reserved8 | reserved9 | reservedA | reservedB | reservedC | reservedD | reservedE | reservedF =>
    cases hexec; exact ⟨_, _, _, .rejected _, rfl⟩

end Sys2Proof.Machine
end

section
/-! PROOFS. Reset (R37, R260, R261). -/

namespace Sys2Proof.Machine

/-- A read of the text at or past its length faults (R52). -/
theorem textRead_of_length_le {s : State} {k : Nat} (h : s.textLen ≤ k) : textRead s k = .error (.textUndefined k) := by
  unfold textRead; rw [if_neg (by omega)]

/-- The reset event leaves every register of the block at its reset value, whatever the state before (R260). -/
theorem resetEvent_atReset (s : State) : AtReset (resetEvent s) :=
  ⟨⟨rfl, rfl, rfl, rfl, rfl⟩, ⟨rfl, rfl, rfl, rfl, rfl, rfl, rfl, rfl, rfl⟩, ⟨rfl, rfl, rfl, rfl⟩, ⟨rfl, rfl, rfl⟩,
    ⟨rfl, rfl, rfl, rfl, rfl⟩, ⟨rfl, rfl, rfl⟩, fun _ => textRead_of_length_le (Nat.zero_le _), rfl⟩

/-- The machine right after reset is what the reset event leaves of itself. -/
theorem resetEvent_reset : resetEvent State.reset = State.reset := rfl

/-- Settles O22: the reset event leaves these values in any state, and the reset state is one that it leaves. -/
theorem resetValues : Obligations.ResetValues := by
  unfold Obligations.ResetValues
  rw [← resetEvent_reset]
  exact resetEvent_atReset State.reset

/-- Settles O23: the step is the reset event, which writes the registers of the block alone; the chip's outputs it keeps while the
latch line is high. -/
theorem resetEventLeaves : Obligations.ResetEventLeaves := by
  intro s rest hev
  refine ⟨resetEvent { s with events := rest }, step_of_event hev, resetEvent_atReset _, rfl, rfl, rfl, rfl, rfl, ?_, rfl, rfl⟩
  intro hload
  exact if_pos hload

end Sys2Proof.Machine
end

section
/-! PROOFS. What no command and no micro-step writes: the frames and the configuration (R11 to R15, R59 (b), R185). -/

namespace Sys2Proof.Machine

/-- No command writes a frame (R59 (b)). -/
theorem CommandEffect.frame_eq {i : Instr} {s u : State} (h : CommandEffect s i u) : u.frame = s.frame := by
  cases h with
  | scroll => rw [scrollStep_frame]
  | _ => rfl

/-- A command changes no frame. -/
theorem exec_frame_eq {i : Instr} {s t : State} (hexec : exec i s = .next t) : t.frame = s.frame := by
  obtain ⟨u, st, n, heff, rfl⟩ := exec_effect hexec
  exact heff.frame_eq

/-- ADVANCE writes no frame (R200). -/
theorem advance_frame_eq (s : State) : (advance s).frame = s.frame := by rw [advance_frame]

/-- A micro-step that does not perform REBUILD changes no frame (R185). -/
theorem MicroTaken.frame_eq {s t : State} (h : MicroTaken s t) (hno : ¬(s.fsm = .rebuild ∧ s.contentChanged = true)) :
    t.frame = s.frame := by
  cases h with
  | advance => exact advance_frame_eq s
  | rebuild hfsm hchanged => exact absurd ⟨hfsm, hchanged⟩ hno
  | _ => rfl

/-- Settles O46: commands, ticks and the other events write no frame, the extra step of `mixed` does nothing under `hold`, and of
the micro-steps REBUILD alone writes frames. -/
theorem framesHeldBetweenRebuilds : Obligations.FramesHeldBetweenRebuilds := by
  intro s t hhold hstep hreset hno
  cases step_taken hstep with
  | micro hnext hmicro =>
    exact (microStep_taken hmicro).frame_eq fun ⟨hfsm, hchanged⟩ => hno ⟨hfsm, hnext, hchanged⟩
  | reset hhead => exact absurd hhead hreset
  | command hexec =>
    have hframe := exec_frame_eq hexec
    exact hframe
  | midpass hmidpass =>
    have hidle : midpassStep s.pastEvent = .next s.pastEvent := midpassStep_of_hold hhold
    rw [hidle] at hmidpass
    cases hmidpass
    rfl
  | tick | receive | brightness => rfl

/-- Agreement on the configuration: the parameters with the font, the maps and their counts (R11 to R13, R15). -/
structure SameConfiguration (s t : State) : Prop where
  cfg : t.cfg = s.cfg
  configured : t.configured = s.configured
  nseg : t.nseg = s.nseg
  ndig : t.ndig = s.ndig
  segMap : t.segMap = s.segMap
  posMap : t.posMap = s.posMap

/-- Agreement on the configuration goes on through a second change that keeps it. -/
theorem SameConfiguration.trans {s t u : State} (h : SameConfiguration s t) (h' : SameConfiguration t u) :
    SameConfiguration s u :=
  ⟨h'.cfg.trans h.cfg, h'.configured.trans h.configured, h'.nseg.trans h.nseg, h'.ndig.trans h.ndig, h'.segMap.trans h.segMap,
    h'.posMap.trans h.posMap⟩

/-- Which events wait is no part of the configuration. -/
theorem sameConfiguration_pastEvent (s : State) : SameConfiguration s s.pastEvent := ⟨rfl, rfl, rfl, rfl, rfl, rfl⟩

/-- SCROLL_STEP leaves the configuration alone (R205). -/
theorem scrollStep_sameConfiguration (s : State) : SameConfiguration s (scrollStep s) := by
  rw [scrollStep_frame]; exact ⟨rfl, rfl, rfl, rfl, rfl, rfl⟩

/-- ADVANCE leaves the configuration alone (R200). -/
theorem advance_sameConfiguration (s : State) : SameConfiguration s (advance s) := by
  rw [advance_frame]; exact ⟨rfl, rfl, rfl, rfl, rfl, rfl⟩

/-- REBUILD leaves the configuration alone (R160). -/
theorem rebuild_sameConfiguration {s u : State} (h : rebuild s = .ok u) : SameConfiguration s u := by
  obtain ⟨f, -, rfl⟩ := rebuild_eq_ok.mp h
  exact ⟨rfl, rfl, rfl, rfl, rfl, rfl⟩

/-- A command leaves the configuration alone, but for a valid SETUP (R122). -/
theorem CommandEffect.sameConfiguration_or_setup {i : Instr} {s u : State} (h : CommandEffect s i u) :
    SameConfiguration s u ∨ ∃ a b pl, i = .setup a b pl ∧ setupValid s a b pl = true ∧ u.cfg = s.cfg := by
  cases h with
  | setup hvalid => exact .inr ⟨_, _, _, rfl, hvalid, rfl⟩
  | scroll => exact .inl (scrollStep_sameConfiguration s)
  | _ => exact .inl ⟨rfl, rfl, rfl, rfl, rfl, rfl⟩

/-- A micro-step leaves the configuration alone. -/
theorem MicroTaken.sameConfiguration {s t : State} (h : MicroTaken s t) : SameConfiguration s t := by
  cases h with
  | advance => exact (advance_sameConfiguration s).trans ⟨rfl, rfl, rfl, rfl, rfl, rfl⟩
  | rebuild _ _ hrebuild => exact (rebuild_sameConfiguration hrebuild).trans ⟨rfl, rfl, rfl, rfl, rfl, rfl⟩
  | _ => exact ⟨rfl, rfl, rfl, rfl, rfl, rfl⟩

/-- The extra step of `mixed` leaves the configuration alone. -/
theorem midpassStep_sameConfiguration {s t : State} (h : midpassStep s = .next t) : SameConfiguration s t := by
  obtain ⟨-, rfl⟩ | ⟨-, hrebuild⟩ := midpassStep_eq_next.mp h
  · exact ⟨rfl, rfl, rfl, rfl, rfl, rfl⟩
  · exact rebuild_sameConfiguration hrebuild

/-- A step leaves the configuration alone, but for a reset, which keeps the parameters, and for a valid SETUP (R12, R13, R15). -/
theorem step_sameConfiguration {s t : State} (hstep : step s = .next t) :
    SameConfiguration s t ∨ (s.events.head? = some .reset ∧ t.cfg = s.cfg) ∨
      ∃ a b pl, setupValid s a b pl = true ∧ exec (.setup a b pl) { s.pastEvent with port := .idle } = .next t ∧
        t.cfg = s.cfg := by
  cases step_taken hstep with
  | micro _ hmicro => exact .inl ((sameConfiguration_pastEvent s).trans (microStep_taken hmicro).sameConfiguration)
  | reset hhead => exact .inr (.inl ⟨hhead, rfl⟩)
  | command hexec =>
    obtain ⟨u, st, n, heff, rfl⟩ := exec_effect hexec
    obtain ⟨h1, h2, h3, h4, h5, h6⟩ | ⟨a, b, pl, rfl, hvalid, hcfg⟩ := heff.sameConfiguration_or_setup
    · exact .inl ⟨h1, h2, h3, h4, h5, h6⟩
    · exact .inr (.inr ⟨a, b, pl, hvalid, hexec, hcfg⟩)
  | midpass hmidpass => exact .inl ((sameConfiguration_pastEvent s).trans (midpassStep_sameConfiguration hmidpass))
  | tick | receive | brightness => exact .inl ⟨rfl, rfl, rfl, rfl, rfl, rfl⟩

/-- Settles O54: the exceptions of `step_sameConfiguration` are the reset, which the statement leaves out, and a valid SETUP, which
an already configured block does not accept. -/
theorem configurationImmutable : Obligations.ConfigurationImmutable := by
  intro s t hstep
  obtain ⟨hcfg, hconf, hnseg, hndig, hseg, hpos⟩ | ⟨hhead, hcfg⟩ | ⟨a, b, pl, hvalid, hexec, hcfg⟩ :=
    step_sameConfiguration hstep
  · exact ⟨hcfg, fun hc _ => ⟨hconf.trans hc, hnseg, hndig, hseg, hpos⟩,
      fun hc _ => .inl ⟨hconf.trans hc, hnseg, hndig, hseg, hpos⟩⟩
  · exact ⟨hcfg, fun _ hno => absurd hhead hno, fun _ hno => absurd hhead hno⟩
  · have hunconf : s.configured = false := (setupValid_iff.mp hvalid).1
    exact ⟨hcfg, fun hc _ => (by simp [hunconf] at hc),
      fun _ _ => .inr ⟨a, b, pl, setupAllowed_iff.mpr hvalid, hstep.trans hexec.symm⟩⟩

end Sys2Proof.Machine
end

section
/-! PROOFS. A clear dirty flag means that the frames are what REBUILD would write (R22, R61, R166). -/

namespace Sys2Proof.Machine

/-- A walk over a frame buffer that already holds its frames changes nothing: what it writes does not depend on what was there. -/
theorem buildFrames_idempotent {s : State} {w : WalkPlan} (n p k : Nat) (f f' : FrameFile)
    (h : buildFrames s w n p k f = .ok f') : buildFrames s w n p k f' = .ok f' := by
  induction n generalizing p k f with
  | zero => rfl
  | succ n ih =>
    obtain ⟨fr, k', hfr, hrest⟩ := buildFrames_succ_eq_ok.mp h
    refine buildFrames_succ_eq_ok.mpr ⟨fr, k', hfr, ?_⟩
    have hp : p < 20 := by
      obtain ⟨pin, hpin, -⟩ := buildFrame_cases hfr
      exact (posPin_entry hpin).1
    have hread : f'[p]? = some fr := by
      have := buildFrames_read n (p + 1) k' _ f' hrest p
      rwa [if_neg (by omega), FrameFile.getElem?_write f p p fr hp, if_pos rfl] at this
    rw [FrameFile.write_of_read f' p fr hread]
    exact ih _ _ _ hrest

/-- REBUILD leaves a buffer that it would write again as it is (R160). -/
theorem rebuild_rebuild {s u : State} (h : rebuild s = .ok u) : rebuild u = .ok u := by
  obtain ⟨f, hf, rfl⟩ := rebuild_eq_ok.mp h
  have hreads : SameReads s { s with frame := f, contentChanged := false } := by constructor <;> rfl
  refine rebuild_eq_ok.mpr ⟨f, ?_, rfl⟩
  rw [hreads.walkPlan, hreads.buildFrames]
  exact buildFrames_idempotent _ _ _ _ _ hf

/-- Freshness is kept where nothing that REBUILD reads or writes changes. -/
theorem FramesFresh.of_sameReads {s t : State} (h : FramesFresh s) (hreads : SameReads s t := by constructor <;> rfl)
    (hframe : t.frame = s.frame := by rfl) (hconf : t.configured = s.configured := by rfl)
    (hflag : t.contentChanged = s.contentChanged := by rfl) : FramesFresh t := by
  intro hc hclean
  have hs : rebuild s = .ok s := h (hconf ▸ hc) (hflag ▸ hclean)
  rw [hreads.rebuild hframe hs, ← hframe, ← hclean]

/-- A set flag asks nothing of the frames. -/
theorem FramesFresh.of_changed {t : State} (h : t.contentChanged = true) : FramesFresh t := by
  intro _ hclean
  rw [h] at hclean
  cases hclean

/-- REBUILD makes the frames fresh. -/
theorem FramesFresh.of_rebuild {s u : State} (h : rebuild s = .ok u) : FramesFresh u := fun _ _ => rebuild_rebuild h

/-- SCROLL_STEP sets the flag where it does anything (R205). -/
theorem scrollStep_changed_or_eq (s : State) : (scrollStep s).contentChanged = true ∨ scrollStep s = s := by
  obtain ⟨-, heq⟩ | ⟨-, -, heq⟩ | ⟨-, -, heq⟩ := scrollStep_cases s
  · exact .inr heq
  · exact .inl (by rw [heq])
  · exact .inl (by rw [heq, countCycle_frame])

/-- ADVANCE sets the flag where it does more than write `eff_timer` (R200). -/
theorem advance_changed_or_timer (s : State) :
    (advance s).contentChanged = true ∨ advance s = { s with effTimer := (advance s).effTimer } := by
  unfold advance
  split
  · split
    · left; rw [demoStep_frame]
    · exact .inr rfl
  · split
    · split
      · left; rw [blinkToggle_frame]
      · exact .inr rfl
    · split
      · obtain h | h := scrollStep_changed_or_eq (timerTick s.cfg.scrollTicks s)
        · exact .inl h
        · right; rw [h]; rfl
      · exact .inr rfl
    · exact .inr rfl

/-- A command sets the flag where it does anything (R22). -/
theorem CommandEffect.changed_or_eq {i : Instr} {s u : State} (h : CommandEffect s i u) : u.contentChanged = true ∨ u = s := by
  cases h with
  | rejected => exact .inr rfl
  | scroll => exact scrollStep_changed_or_eq s
  | _ => exact .inl rfl

/-- Every command keeps freshness: it changes what REBUILD reads only with the flag set. -/
theorem exec_framesFresh {i : Instr} {s t : State} (h : FramesFresh s) (hexec : exec i s = .next t) : FramesFresh t := by
  obtain ⟨u, st, n, heff, rfl⟩ := exec_effect hexec
  obtain hchanged | rfl := heff.changed_or_eq
  · exact .of_changed hchanged
  · exact h.of_sameReads

/-- Every micro-step keeps freshness: ADVANCE sets the flag with what it changes, REBUILD makes the frames fresh, and the
transmission touches neither. -/
theorem MicroTaken.framesFresh {s t : State} (hmicro : MicroTaken s t) (h : FramesFresh s) : FramesFresh t := by
  cases hmicro with
  | wait => exact h
  | advance =>
    obtain hchanged | heq := advance_changed_or_timer s
    · exact .of_changed hchanged
    · rw [heq]; exact h.of_sameReads
  | rebuild _ _ hrebuild =>
    exact (FramesFresh.of_rebuild hrebuild).of_sameReads
  | enter | fresh | txLow | txShift | txHigh => exact h.of_sameReads

/-- Settles O53, by the event that the step takes: a command or a micro-step, the extra REBUILD of `mixed`, a reset, after which the
block is not configured, or an event that touches nothing REBUILD reads. -/
theorem framesFreshKept : Obligations.FramesFreshKept := by
  intro s t hfresh hstep
  have hpast : FramesFresh s.pastEvent := hfresh.of_sameReads
  cases step_taken hstep with
  | micro _ hmicro => exact (microStep_taken hmicro).framesFresh hpast
  | reset => intro hconf; cases hconf
  | command hexec => exact exec_framesFresh (hfresh.of_sameReads) hexec
  | midpass hmidpass =>
    obtain ⟨-, rfl⟩ | ⟨-, hrebuild⟩ := midpassStep_eq_next.mp hmidpass
    · exact hpast
    · exact .of_rebuild hrebuild
  | tick | receive | brightness => exact hfresh.of_sameReads

end Sys2Proof.Machine
end

section
/-! PROOFS. The invariants of the block in two parts: what commands and the timer write, and what the refresh FSM walks through
(R13 to R31, R168, R190, R208). -/

namespace Sys2Proof.Machine

/-- The part of `BlockInv` that speaks of the configuration, DisplayText, the demo and the timer. -/
structure DisplayInv (s : State) : Prop where
  textWf : s.text.wf
  textFits : s.textLen ≤ s.cfg.textCap
  textHeld : ∀ k, k < s.textLen → (cellRead s.text k).isSome
  textInBuffer : ∀ k c, cellRead s.text k = some c → k < s.cfg.textCap
  maps : s.configured = true → MapsValid s
  unconfigured : s.configured = false → s.nseg = 0 ∧ s.ndig = 0 ∧ s.startPos = 0 ∧ s.maxPos = 0 ∧ s.demoIdx = 0
  window : s.startPos.toNat ≤ s.maxPos.toNat
  windowOnDisplay : s.configured = true → s.maxPos.toNat < s.ndig.toNat
  visibleLen : s.visibleLen = min s.textLen (windowWidth s)
  visible : s.visibleIdx + s.visibleLen ≤ s.textLen
  phase : s.effect ≠ .blink → s.blinkOn = true
  cycles : s.cycleNum ≠ 0 → s.effect ≠ .none → s.cyclesLeft ≠ 0 ∧ s.cyclesLeft.toNat ≤ s.cycleNum.toNat
  demoCycles : s.demoCycleNum ≠ 0 → s.demoMode = .scrollFont →
    s.demoCyclesLeft ≠ 0 ∧ s.demoCyclesLeft.toNat ≤ s.demoCycleNum.toNat
  demoWindow : s.demoIdx.toNat + s.ndig.toNat ≤ 95
  timer : s.effTimer < max s.cfg.blinkHalfTicks s.cfg.scrollTicks

/-- Every position's frame has the shape of R168 (a). -/
def FramesShaped (s : State) : Prop := ∀ p f, p < s.ndig.toNat → s.frame[p]? = some f → FrameShape s p f

/-- The part of `BlockInv` that speaks of the refresh FSM, the frames and the serial link. -/
structure RefreshInv (s : State) : Prop where
  unconfigured : s.configured = false → s.fsm = .idle
  digit : s.fsm.transmits → s.digitIdx.toNat < s.ndig.toNat
  bit : s.bitIdx.toNat ≤ 23
  shreg : s.fsm.inFrame → s.frame[s.digitIdx.toNat]? = some s.shreg
  latch : s.load = false ↔ s.fsm.inFrame
  framesShaped : s.configured = true → (s.contentChanged = false ∨ s.fsm.transmits) → FramesShaped s
  shifted : s.fsm = .txShift → ∀ i, i < 20 → i + s.bitIdx.toNat < 23 →
    s.chipSr.getLsbD i = s.shreg.getLsbD (s.bitIdx.toNat + 1 + i)
  shiftedAll : s.fsm = .txHigh → s.chipSr = s.shreg.setWidth 20

/-- The part of `BlockInv` that speaks of the command port (R80). -/
def PortInv (s : State) : Prop := ∀ h got, s.port = .receiving h got → got.length < hdrN h

/-- The invariants of the block are those of its parts. -/
theorem blockInv_iff {s : State} : BlockInv s ↔ DisplayInv s ∧ RefreshInv s ∧ PortInv s := by
  constructor
  · intro h
    refine ⟨{ h with unconfigured := fun hc => ?_ }, { h with unconfigured := fun hc => ?_ }, h.port⟩
    · obtain ⟨hnseg, hndig, hstart, hmax, hdemo, -⟩ := h.unconfigured hc
      exact ⟨hnseg, hndig, hstart, hmax, hdemo⟩
    · obtain ⟨-, -, -, -, -, hfsm⟩ := h.unconfigured hc
      exact hfsm
  · rintro ⟨hd, hr, hp⟩
    refine { hd, hr with port := hp, unconfigured := fun hc => ?_ }
    obtain ⟨hnseg, hndig, hstart, hmax, hdemo⟩ := hd.unconfigured hc
    exact ⟨hnseg, hndig, hstart, hmax, hdemo, hr.unconfigured hc⟩

end Sys2Proof.Machine
end

section
/-! PROOFS. Commands and the timer keep their part of the invariants (R23, R145, R206 to R208). -/

namespace Sys2Proof.Machine

/-- A register file's first entries after a run of pins is written from entry 0 (R122). -/
theorem writeMap_take (v : Vector Pin 20) (l : List Byte) (hl : l.length ≤ 20) :
    (writeMap v 0 l).toList.take l.length = l.map (·.setWidth 5) := by
  ext1 i
  by_cases hi : i < l.length
  · rw [List.getElem?_take_of_lt hi, Vector.getElem?_toList, writeMap_getElem? l v 0 i (by omega), List.getElem?_map]
    simp [hi]
  · simp [hi]

/-- The maps that a valid SETUP writes are valid (R13, R121, R122). -/
theorem setup_mapsValid {s : State} {a b : Byte} {pl : List Byte} (hvalid : setupValid s a b pl = true) :
    MapsValid { s with
      nseg := a.setWidth 5
      ndig := b.setWidth 5
      segMap := writeMap s.segMap 0 (pl.take a.toNat)
      posMap := writeMap s.posMap 0 (pl.drop a.toNat)
      configured := true
      contentChanged := true } := by
  obtain ⟨-, hlen, ⟨ha, hb⟩, hsum, hpins, hnodup⟩ := setupValid_iff.mp hvalid
  have hnseg : (a.setWidth 5).toNat = a.toNat := by rw [BitVec.toNat_setWidth, Nat.mod_eq_of_lt (by omega)]
  have hndig : (b.setWidth 5).toNat = b.toNat := by rw [BitVec.toNat_setWidth, Nat.mod_eq_of_lt (by omega)]
  have hpin : ∀ x ∈ pl, (x.setWidth 5).toNat = x.toNat := by
    intro x hx
    have := hpins x hx
    rw [BitVec.toNat_setWidth, Nat.mod_eq_of_lt (by omega)]
  have hseg := writeMap_take s.segMap (pl.take a.toNat) (by simp; omega)
  have hpos := writeMap_take s.posMap (pl.drop a.toNat) (by simp; omega)
  rw [List.length_take_of_le (by omega)] at hseg
  rw [List.length_drop, hlen, Nat.add_sub_cancel_left] at hpos
  unfold MapsValid validPins
  simp only [hnseg, hndig, hseg, hpos, ← List.map_append, List.take_append_drop]
  refine ⟨ha, hb, hsum, ?_, ?_⟩
  · intro pin hmem
    obtain ⟨x, hx, rfl⟩ := List.mem_map.mp hmem
    rw [hpin x hx]
    exact hpins x hx
  · refine hnodup.map_on fun x hx y hy hxy => BitVec.eq_of_toNat_eq ?_
    rw [← hpin x hx, ← hpin y hy, hxy]

/-- An alignment keeps the visible substring inside the text (R131, R145). -/
theorem alignedIdx_visible (s : State) (a : Align) : alignedIdx s a + min s.textLen (windowWidth s) ≤ s.textLen := by
  cases a <;> simp only [alignedIdx] <;> omega

/-- The longer interval is not empty (R5). -/
theorem interval_pos (c : Config) : 0 < max c.blinkHalfTicks c.scrollTicks := by
  have := c.ok.2.2.1
  omega

/-- A count that is not 0 goes down by one and does not wrap (R208). -/
theorem count_sub_one_toNat {x : BitVec 8} (h : x ≠ 0) : (x - 1).toNat = x.toNat - 1 := by
  bv_omega

/-- Placing a text in a valid window keeps the invariants (R126). -/
theorem DisplayInv.placeText {s : State} (h : DisplayInv s) {first last : BitVec 5} (txt : List Byte)
    (hvalid : windowValid s first.toNat last.toNat = true) : DisplayInv (placeText first last txt s) := by
  obtain ⟨hconf, hle, hlast, -⟩ := windowValid_iff.mp hvalid
  have hlen : (storedText s txt).length ≤ s.cfg.textCap := List.length_take_le _ _
  have hread := fun k => cellRead_writeBytes (storedText s txt) s.text 0 k
  refine { h with
    textWf := Memory.wf_writeBytes _ _ _ h.textWf
    textFits := hlen
    textHeld := fun k (hk : k < (storedText s txt).length) => ?_
    textInBuffer := fun k c (hk : cellRead (writeBytes s.text 0 (storedText s txt)) k = some c) => ?_
    unconfigured := fun hc => absurd (hconf.symm.trans hc) (by simp)
    window := hle
    windowOnDisplay := fun _ => hlast
    visibleLen := ?_
    visible := ?_ }
  · show (cellRead (writeBytes s.text 0 (storedText s txt)) k).isSome
    rw [hread, if_pos ⟨Nat.zero_le k, by omega⟩]
    simpa using hk
  · show k < s.cfg.textCap
    rw [hread] at hk
    split at hk
    · omega
    · exact h.textInBuffer k c hk
  · simp only [Machine.placeText, windowWidth]; omega
  · simp only [Machine.placeText]; omega

/-- Counting a cycle of a running effect keeps the invariants; a blink has ended its off half by then (R203, R205, R208). -/
theorem DisplayInv.countCycle {s : State} (h : DisplayInv s) (hon : s.blinkOn = true) (heff : s.effect ≠ .none) :
    DisplayInv (countCycle s) := by
  obtain ⟨-, heq⟩ | ⟨-, -, heq⟩ | ⟨hnum, hmore, heq⟩ := countCycle_cases s
  · rw [heq]; exact h
  · rw [heq]
    exact { h with phase := fun _ => hon, cycles := fun _ hnone => absurd rfl hnone }
  · rw [heq]
    obtain ⟨hleft, hle⟩ := h.cycles hnum heff
    refine { h with cycles := fun _ _ => ⟨hmore, ?_⟩ }
    show (s.cyclesLeft - 1).toNat ≤ s.cycleNum.toNat
    rw [count_sub_one_toNat hleft]
    omega

/-- Counting a cycle of a running demo keeps the invariants (R207, R208). -/
theorem DisplayInv.countDemoCycle {s : State} (h : DisplayInv s) (hdemo : s.demoMode = .scrollFont) :
    DisplayInv (countDemoCycle s) := by
  obtain ⟨-, heq⟩ | ⟨-, -, heq⟩ | ⟨hnum, hmore, heq⟩ := countDemoCycle_cases s
  · rw [heq]; exact h
  · rw [heq]
    exact { h with demoCycles := fun _ hoff => nomatch hoff }
  · rw [heq]
    obtain ⟨hleft, hle⟩ := h.demoCycles hnum hdemo
    refine { h with demoCycles := fun _ _ => ⟨hmore, ?_⟩ }
    show (s.demoCyclesLeft - 1).toNat ≤ s.demoCycleNum.toNat
    rw [count_sub_one_toNat hleft]
    omega

/-- SCROLL_STEP keeps the invariants: the cursor moves on only where a whole window of text lies ahead (R205, R206). -/
theorem DisplayInv.scrollStep {s : State} (h : DisplayInv s) : DisplayInv (scrollStep s) := by
  obtain ⟨-, heq⟩ | ⟨-, hmore, heq⟩ | ⟨heff, -, heq⟩ := scrollStep_cases s
  · rw [heq]; exact h
  · rw [heq]
    refine { h with visible := ?_ }
    show s.visibleIdx + 1 + s.visibleLen ≤ s.textLen
    rw [h.visibleLen]
    omega
  · rw [heq]
    have hstart : DisplayInv { s with visibleIdx := 0, contentChanged := true } := by
      refine { h with visible := ?_ }
      show 0 + s.visibleLen ≤ s.textLen
      rw [h.visibleLen]
      omega
    exact hstart.countCycle (h.phase (by rw [heff]; decide)) (by show s.effect ≠ .none; rw [heff]; decide)

/-- BLINK_TOGGLE of a running blink keeps the invariants (R203, R204). -/
theorem DisplayInv.blinkToggle {s : State} (h : DisplayInv s) (heff : s.effect = .blink) : DisplayInv (blinkToggle s) := by
  unfold Machine.blinkToggle
  split
  · exact { h with phase := fun hne => absurd heff hne }
  · have hon : DisplayInv { s with blinkOn := true } := { h with phase := fun _ => rfl }
    have hcount := hon.countCycle rfl (by show s.effect ≠ .none; rw [heff]; decide)
    exact { hcount with }

/-- DEMO_STEP of a running demo keeps the invariants: the demo's window stays inside the font (R207). -/
theorem DisplayInv.demoStep {s : State} (h : DisplayInv s) (hconf : s.configured = true) (hdemo : s.demoMode = .scrollFont) :
    DisplayInv (demoStep s) := by
  have hunconf : ¬s.configured = false := by simp [hconf]
  obtain ⟨hmore, heq⟩ | ⟨-, heq⟩ := demoStep_cases s
  · rw [heq]
    refine { h with unconfigured := fun hc => absurd hc hunconf, demoWindow := ?_ }
    show (s.demoIdx + 1).toNat + s.ndig.toNat ≤ 95
    bv_omega
  · rw [heq]
    have hstart : DisplayInv { s with demoIdx := 0, contentChanged := true } := by
      refine { h with unconfigured := fun hc => absurd hc hunconf, demoWindow := ?_ }
      show 0 + s.ndig.toNat ≤ 95
      omega
    exact hstart.countDemoCycle hdemo

/-- A tick of `eff_timer` towards either interval keeps the invariants (R200, R208). -/
theorem DisplayInv.timerTick {s : State} (h : DisplayInv s) {period : Nat}
    (hle : period ≤ max s.cfg.blinkHalfTicks s.cfg.scrollTicks) : DisplayInv (timerTick period s) := by
  refine { h with timer := ?_ }
  have := interval_pos s.cfg
  show (if period ≤ s.effTimer + 1 then 0 else s.effTimer + 1) < max s.cfg.blinkHalfTicks s.cfg.scrollTicks
  split <;> omega

/-- ADVANCE of a configured block keeps the invariants (R200, R206 to R208). -/
theorem DisplayInv.advance {s : State} (h : DisplayInv s) (hconf : s.configured = true) : DisplayInv (advance s) := by
  have hscroll := h.timerTick (Nat.le_max_right s.cfg.blinkHalfTicks s.cfg.scrollTicks)
  have hblink := h.timerTick (Nat.le_max_left s.cfg.blinkHalfTicks s.cfg.scrollTicks)
  unfold Machine.advance
  split
  · next hdemo =>
    split
    · exact hscroll.demoStep hconf hdemo
    · exact hscroll
  · split
    · next heff =>
      split
      · exact hblink.blinkToggle heff
      · exact hblink
    · split
      · exact hscroll.scrollStep
      · exact hscroll
    · exact { h with timer := interval_pos s.cfg }

/-- Every command keeps the invariants of the display (R145, R208). -/
theorem CommandEffect.displayInv {i : Instr} {s u : State} (heff : CommandEffect s i u) (h : DisplayInv s) : DisplayInv u := by
  cases heff with
  | rejected => exact h
  | @setup a b pl hvalid =>
    obtain ⟨hunconf, -, ⟨-, hb⟩, hsum, -, -⟩ := setupValid_iff.mp hvalid
    obtain ⟨-, -, -, hmax, hdemo⟩ := h.unconfigured hunconf
    have hndig : (b.setWidth 5).toNat = b.toNat := by rw [BitVec.toNat_setWidth, Nat.mod_eq_of_lt (by omega)]
    refine { h with
      maps := fun _ => setup_mapsValid hvalid
      unconfigured := (nomatch ·)
      windowOnDisplay := fun _ => ?_
      demoWindow := ?_ }
    · show s.maxPos.toNat < (b.setWidth 5).toNat
      rw [hmax, hndig]
      exact hb
    · show s.demoIdx.toNat + (b.setWidth 5).toNat ≤ 95
      rw [hdemo, hndig]
      show 0 + b.toNat ≤ 95
      omega
  | place i txt hvalid => exact h.placeText txt hvalid
  | align a =>
    refine { h with visible := ?_ }
    show (if s.effect = .scrollLeft then s.visibleIdx else alignedIdx s a) + s.visibleLen ≤ s.textLen
    split
    · exact h.visible
    · rw [h.visibleLen]; exact alignedIdx_visible s a
  | effect e cycles =>
    refine { h with
      visible := ?_
      phase := fun _ => rfl
      cycles := fun hnum _ => ⟨hnum, le_rfl⟩
      timer := interval_pos s.cfg }
    have := h.visible
    show (if e = .scrollLeft then 0 else s.visibleIdx) + s.visibleLen ≤ s.textLen
    split <;> omega
  | scroll => exact h.scrollStep
  | demo m cycles =>
    refine { h with
      unconfigured := fun hc => ?_
      demoCycles := fun hnum _ => ⟨hnum, le_rfl⟩
      demoWindow := ?_
      timer := interval_pos s.cfg }
    · obtain ⟨hnseg, hndig, hstart, hmax, -⟩ := h.unconfigured hc
      exact ⟨hnseg, hndig, hstart, hmax, rfl⟩
    · have := h.demoWindow
      show 0 + s.ndig.toNat ≤ 95
      omega

end Sys2Proof.Machine
end

section
/-! PROOFS. The refresh FSM and the commands keep the refresh part of the invariants (R31, R168, R185, R190, R237). -/

namespace Sys2Proof.Machine

/-- REBUILD gives every position a frame of its shape (R168 (a)). -/
theorem rebuild_framesShaped {s u : State} (hm : MapsValid s) (h : rebuild s = .ok u) : FramesShaped u := by
  obtain ⟨file, hfile, rfl⟩ := rebuild_eq_ok.mp h
  intro p f hp hf
  have hread := buildFrames_read _ _ _ _ _ hfile p
  rw [if_pos ⟨Nat.zero_le p, by simpa using hp⟩] at hread
  obtain ⟨k, fr, k', hbuild, hfr⟩ := hread
  obtain rfl : fr = f := Option.some.inj (hfr.symm.trans hf)
  exact buildFrame_shape hm hp hbuild

/-- Agreement on the registers of the refresh FSM and on the frames. -/
structure SameRefresh (s t : State) : Prop where
  fsm : t.fsm = s.fsm
  digitIdx : t.digitIdx = s.digitIdx
  bitIdx : t.bitIdx = s.bitIdx
  shreg : t.shreg = s.shreg
  load : t.load = s.load
  chipSr : t.chipSr = s.chipSr
  frame : t.frame = s.frame

/-- The refresh part holds where the configuration and the refresh registers are as before and the dirty flag is not cleared. -/
theorem RefreshInv.of_same {s t : State} (h : RefreshInv s) (hconf : SameConfiguration s t) (hsame : SameRefresh s t)
    (hflag : t.contentChanged = false → s.contentChanged = false) : RefreshInv t where
  unconfigured hc := by rw [hsame.fsm]; exact h.unconfigured (hconf.configured ▸ hc)
  digit ht := by rw [hsame.digitIdx, hconf.ndig]; exact h.digit (hsame.fsm ▸ ht)
  bit := by rw [hsame.bitIdx]; exact h.bit
  shreg ht := by rw [hsame.frame, hsame.digitIdx, hsame.shreg]; exact h.shreg (hsame.fsm ▸ ht)
  latch := by rw [hsame.load, hsame.fsm]; exact h.latch
  framesShaped hc hclean p f hp hf :=
    (h.framesShaped (hconf.configured ▸ hc) (hclean.imp hflag fun ht => hsame.fsm ▸ ht) p f (hconf.ndig ▸ hp)
      (hsame.frame ▸ hf)).of_maps hconf.segMap hconf.posMap hconf.nseg hconf.ndig
  shifted ht := by rw [hsame.chipSr, hsame.bitIdx, hsame.shreg]; exact h.shifted (hsame.fsm ▸ ht)
  shiftedAll ht := by rw [hsame.chipSr, hsame.shreg]; exact h.shiftedAll (hsame.fsm ▸ ht)

/-- A frame is shifted out only in the transmission part of a pass (R186 to R188). -/
theorem Fsm.inFrame.transmits {f : Fsm} (h : f.inFrame) : f.transmits := .inr h

/-- Outside a frame the latch line is high (R190). -/
theorem RefreshInv.load_eq_true {s : State} (h : RefreshInv s) (hout : ¬s.fsm.inFrame) : s.load = true := by
  cases hl : s.load
  · exact absurd (h.latch.mp hl) hout
  · rfl

/-- What the refresh part asks outside the transmission part of a pass. -/
theorem RefreshInv.of_quiet {t : State} (hquiet : ¬t.fsm.transmits) (hload : t.load = true) (hbit : t.bitIdx.toNat ≤ 23)
    (hidle : t.configured = false → t.fsm = .idle)
    (hshaped : t.configured = true → t.contentChanged = false → FramesShaped t) : RefreshInv t where
  unconfigured := hidle
  digit ht := absurd ht hquiet
  bit := hbit
  shreg ht := absurd ht.transmits hquiet
  latch := ⟨fun hl => absurd hl (by simp [hload]), fun ht => absurd ht.transmits hquiet⟩
  framesShaped hc hclean := hshaped hc (hclean.resolve_right hquiet)
  shifted ht := absurd (.inr (.inl ht)) hquiet
  shiftedAll ht := absurd (.inr (.inr ht)) hquiet

/-- What the refresh part asks before the `LoadLow` of a position. -/
theorem RefreshInv.of_txLow {t : State} (hfsm : t.fsm = .txLow) (hconf : t.configured = true) (hload : t.load = true)
    (hdigit : t.digitIdx.toNat < t.ndig.toNat) (hbit : t.bitIdx.toNat ≤ 23) (hshaped : FramesShaped t) : RefreshInv t := by
  have hout : ¬t.fsm.inFrame := by simp [hfsm, Fsm.inFrame]
  exact {
    unconfigured := fun hc => absurd hc (by simp [hconf])
    digit := fun _ => hdigit
    bit := hbit
    shreg := fun ht => absurd ht hout
    latch := ⟨fun hl => absurd hl (by simp [hload]), fun ht => absurd ht hout⟩
    framesShaped := fun _ _ => hshaped
    shifted := fun ht => absurd (.inl ht) hout
    shiftedAll := fun ht => absurd (.inr ht) hout }

/-- A pass runs only in a configured block (R182). -/
theorem RefreshInv.configured {s : State} (h : RefreshInv s) (hfsm : s.fsm ≠ .idle) : s.configured = true := by
  cases hc : s.configured
  · exact absurd (h.unconfigured hc) hfsm
  · rfl

/-- SCROLL_STEP writes no register of the refresh FSM and no frame. -/
theorem scrollStep_sameRefresh (s : State) : SameRefresh s (scrollStep s) := by
  rw [scrollStep_frame]; constructor <;> rfl

/-- ADVANCE writes no register of the refresh FSM and no frame. -/
theorem advance_sameRefresh (s : State) : SameRefresh s (advance s) := by
  rw [advance_frame]; constructor <;> rfl

/-- No command writes a register of the refresh FSM or a frame (R120). -/
theorem CommandEffect.sameRefresh {i : Instr} {s u : State} (heff : CommandEffect s i u) : SameRefresh s u := by
  cases heff with
  | scroll => exact scrollStep_sameRefresh s
  | _ => constructor <;> rfl

/-- Every command keeps the refresh part: it sets the dirty flag with what it changes, and SETUP finds the FSM in IDLE. -/
theorem CommandEffect.refreshInv {i : Instr} {s u : State} (heff : CommandEffect s i u) (h : RefreshInv s) : RefreshInv u := by
  obtain hchanged | rfl := heff.changed_or_eq
  · have hdirty : ¬u.contentChanged = false := by simp [hchanged]
    obtain hconf | ⟨a, b, pl, -, hvalid, -⟩ := heff.sameConfiguration_or_setup
    · exact h.of_same hconf heff.sameRefresh fun hclean => absurd hclean hdirty
    · have hidle : s.fsm = .idle := h.unconfigured (setupValid_iff.mp hvalid).1
      have hsame := heff.sameRefresh
      exact .of_quiet (by simp [hsame.fsm, hidle, Fsm.transmits])
        (by rw [hsame.load]; exact h.load_eq_true (by simp [hidle, Fsm.inFrame]))
        (by rw [hsame.bitIdx]; exact h.bit) (fun _ => hsame.fsm.trans hidle) fun _ hclean => absurd hclean hdirty
  · exact h

/-- ADVANCE clears the dirty flag in no case (R200). -/
theorem advance_clean {s : State} (hclean : (advance s).contentChanged = false) : s.contentChanged = false := by
  obtain hchanged | heq := advance_changed_or_timer s
  · rw [hchanged] at hclean; cases hclean
  · rwa [heq] at hclean

/-- The chip's shift register after a bit (R239): the bit at stage 0, the others one stage up. -/
theorem getLsbD_chipShift_bit (sr : PinMask) (b : Bool) {i : Nat} (hi : i < 20) :
    (chipShift sr (.bit b)).getLsbD i = if i = 0 then b else sr.getLsbD (i - 1) := by
  cases i with
  | zero => cases b <;> simp [chipShift]
  | succ i => cases b <;> simp [chipShift, hi, BitVec.getLsbD_eq_getElem (show i < 20 by omega)]

/-- After the bit that `bit_idx` names the chip holds the frame's bits from that one up, as far as its 20 stages go (R187, R239). -/
theorem RefreshInv.chipShift_bit {s : State} (h : RefreshInv s) (hfsm : s.fsm = .txShift) {i : Nat} (hi : i < 20)
    (hsent : i + s.bitIdx.toNat ≤ 23) :
    (chipShift s.chipSr (.bit (s.shreg.getLsbD s.bitIdx.toNat))).getLsbD i = s.shreg.getLsbD (s.bitIdx.toNat + i) := by
  rw [getLsbD_chipShift_bit _ _ hi]
  split
  · next hzero => rw [hzero, Nat.add_zero]
  · next hpos =>
    rw [h.shifted hfsm (i - 1) (by omega) (by omega)]
    congr 1
    omega

/-- The TX_SHIFT micro-step keeps the refresh part: the chip holds one bit of the frame more, and after bit 0 all 20 that it can
(R187, R237, R239). -/
theorem RefreshInv.txShift {s : State} (h : RefreshInv s) (hfsm : s.fsm = .txShift) :
    RefreshInv { s with
      trace := s.trace ++ [.bit (s.shreg.getLsbD s.bitIdx.toNat)]
      chipSr := chipShift s.chipSr (.bit (s.shreg.getLsbD s.bitIdx.toNat))
      din := s.shreg.getLsbD s.bitIdx.toNat
      bitIdx := if s.bitIdx = 0 then s.bitIdx else s.bitIdx - 1
      fsm := if s.bitIdx = 0 then .txHigh else s.fsm } := by
  have hin : s.fsm.inFrame := .inl hfsm
  have hconf : s.configured = true := h.configured (by simp [hfsm])
  have hbits := fun i hi hsent => h.chipShift_bit hfsm (i := i) hi hsent
  by_cases hlast : s.bitIdx = 0
  · simp only [hlast, if_true] at hbits ⊢
    refine { h with
      unconfigured := fun hc => absurd hc (by simp [hconf])
      digit := fun _ => h.digit hin.transmits
      bit := Nat.zero_le _
      shreg := fun _ => h.shreg hin
      latch := ⟨fun _ => .inr rfl, fun _ => h.latch.mpr hin⟩
      framesShaped := fun hc _ => h.framesShaped hc (.inr hin.transmits)
      shifted := (nomatch ·)
      shiftedAll := fun _ => BitVec.eq_of_getLsbD_eq fun i hi => ?_ }
    simpa [BitVec.getLsbD_setWidth, hi] using hbits i hi (by simp; omega)
  · simp only [hlast, if_false]
    have hprev : (s.bitIdx - 1).toNat = s.bitIdx.toNat - 1 := by bv_omega
    have hpos : s.bitIdx.toNat ≠ 0 := fun hz => hlast (BitVec.eq_of_toNat_eq hz)
    refine { h with
      bit := ?_
      shifted := fun _ i hi hsent => ?_
      shiftedAll := fun hhigh => (by rw [hfsm] at hhigh; cases hhigh) }
    · have := h.bit
      show (s.bitIdx - 1).toNat ≤ 23
      omega
    · simp only [hprev] at hsent ⊢
      rw [hbits i hi (by omega)]
      congr 1
      omega

/-- Every micro-step keeps the refresh part of the invariants (R182 to R188). -/
theorem MicroTaken.refreshInv {s t : State} (hmicro : MicroTaken s t) (h : RefreshInv s)
    (hmaps : s.configured = true → MapsValid s) : RefreshInv t := by
  cases hmicro with
  | wait => exact h
  | enter hfsm =>
    have hload : s.load = true := h.load_eq_true (by simp [hfsm, Fsm.inFrame])
    refine .of_quiet ?_ hload h.bit (fun hc => ?_) fun hc hclean => h.framesShaped hc (.inl hclean)
    · simp only [enterPass]; split <;> simp [Fsm.transmits]
    · exact if_neg (by simp [show s.configured = false from hc])
  | advance hfsm =>
    have hadv : RefreshInv (Machine.advance s) := h.of_same (advance_sameConfiguration s) (advance_sameRefresh s) advance_clean
    have hfsm' : (Machine.advance s).fsm = .advance := (advance_sameRefresh s).fsm.trans hfsm
    have hconf : (Machine.advance s).configured = true := hadv.configured (by simp [hfsm'])
    exact .of_quiet (by simp [Fsm.transmits]) (hadv.load_eq_true (by simp [hfsm', Fsm.inFrame])) hadv.bit
      (fun hc => absurd hc (by simp [hconf])) fun hc hclean => hadv.framesShaped hc (.inl hclean)
  | fresh hfsm hclean =>
    have hconf : s.configured = true := h.configured (by simp [hfsm])
    exact .of_txLow rfl hconf (h.load_eq_true (by simp [hfsm, Fsm.inFrame])) (hmaps hconf).2.1 h.bit
      (h.framesShaped hconf (.inl hclean))
  | rebuild hfsm _ hrebuild =>
    have hconf : s.configured = true := h.configured (by simp [hfsm])
    have hshaped := rebuild_framesShaped (hmaps hconf) hrebuild
    obtain ⟨f, -, rfl⟩ := rebuild_eq_ok.mp hrebuild
    exact .of_txLow rfl hconf (h.load_eq_true (by simp [hfsm, Fsm.inFrame])) (hmaps hconf).2.1 h.bit hshaped
  | txLow hfsm hframe =>
    have hconf : s.configured = true := h.configured (by simp [hfsm])
    have htx : s.fsm.transmits := .inl hfsm
    exact {
      unconfigured := fun hc => absurd hc (by simp [hconf])
      digit := fun _ => h.digit htx
      bit := le_rfl
      shreg := fun _ => hframe
      latch := ⟨fun _ => .inl rfl, fun _ => rfl⟩
      framesShaped := fun _ _ => h.framesShaped hconf (.inr htx)
      shifted := fun _ i _ hlt => absurd hlt (Nat.not_lt.mpr (Nat.le_add_left 23 i))
      shiftedAll := (nomatch ·) }
  | txShift hfsm => exact h.txShift hfsm
  | txHigh hfsm =>
    have hconf : s.configured = true := h.configured (by simp [hfsm])
    have htx : s.fsm.transmits := .inr (.inr hfsm)
    have hshaped : FramesShaped s := h.framesShaped hconf (.inr htx)
    have hdigit := h.digit htx
    by_cases hlast : s.digitIdx.toNat + 1 = s.ndig.toNat
    · simp only [hlast, if_true]
      exact .of_quiet (by simp [Fsm.transmits]) rfl h.bit (fun _ => rfl) fun _ _ => hshaped
    · simp only [hlast, if_false]
      refine .of_txLow rfl hconf rfl ?_ h.bit hshaped
      show (s.digitIdx + 1).toNat < s.ndig.toNat
      bv_omega

end Sys2Proof.Machine
end

section
/-! PROOFS. The invariants of the block hold at reset, and every step keeps them (R13 to R31, R168, R190, R208). -/

namespace Sys2Proof.Machine

/-- An idle port waits for no byte (R80). -/
theorem portInv_of_idle {s : State} (h : s.port = .idle) : PortInv s := by
  intro w got hp
  rw [h] at hp
  cases hp

/-- The reset event establishes the invariants in any state (R260). -/
theorem resetEvent_blockInv (s : State) : BlockInv (resetEvent s) where
  textWf := Memory.wf_reset
  textFits := Nat.zero_le _
  textHeld := fun k hk => absurd hk (Nat.not_lt_zero k)
  textInBuffer := (nomatch ·, ·, ·)
  maps := (nomatch ·)
  unconfigured := fun _ => ⟨rfl, rfl, rfl, rfl, rfl, rfl⟩
  window := le_rfl
  windowOnDisplay := (nomatch ·)
  visibleLen := rfl
  visible := le_rfl
  phase := fun _ => rfl
  cycles := fun hnum => absurd rfl hnum
  demoCycles := fun hnum => absurd rfl hnum
  demoWindow := Nat.zero_le _
  timer := interval_pos s.cfg
  digit := by rintro (h | h | h) <;> cases h
  bit := Nat.zero_le _
  shreg := by rintro (h | h) <;> cases h
  latch := ⟨(nomatch ·), by rintro (h | h) <;> cases h⟩
  framesShaped := (nomatch ·)
  shifted := (nomatch ·)
  shiftedAll := (nomatch ·)
  port := portInv_of_idle rfl

/-- Settles O50: the reset state is what the reset event leaves of itself. -/
theorem invariantsAtReset : Obligations.InvariantsAtReset := by
  unfold Obligations.InvariantsAtReset
  rw [← resetEvent_reset]
  exact resetEvent_blockInv State.reset

/-- No command writes the port (R120). -/
theorem CommandEffect.port_eq {i : Instr} {s u : State} (h : CommandEffect s i u) : u.port = s.port := by
  cases h with
  | scroll => rw [scrollStep_frame]
  | _ => rfl

/-- REBUILD does not write the port. -/
theorem rebuild_port_eq {s u : State} (h : rebuild s = .ok u) : u.port = s.port := by
  obtain ⟨f, -, rfl⟩ := rebuild_eq_ok.mp h
  rfl

/-- No micro-step writes the port. -/
theorem MicroTaken.port_eq {s t : State} (h : MicroTaken s t) : t.port = s.port := by
  cases h with
  | advance => rw [advance_frame]
  | rebuild _ _ hrebuild =>
    have hport := rebuild_port_eq hrebuild
    exact hport
  | _ => rfl

/-- REBUILD writes nothing that the display's invariants speak of. -/
theorem DisplayInv.rebuild {s u : State} (h : DisplayInv s) (hrebuild : rebuild s = .ok u) : DisplayInv u := by
  obtain ⟨f, -, rfl⟩ := rebuild_eq_ok.mp hrebuild
  exact { h with }

/-- Every micro-step keeps the invariants of the display: ADVANCE does, and the others write nothing they speak of. -/
theorem MicroTaken.displayInv {s t : State} (hmicro : MicroTaken s t) (hd : DisplayInv s) (hr : RefreshInv s) : DisplayInv t := by
  cases hmicro with
  | advance hfsm =>
    have hadv := hd.advance (hr.configured (by simp [hfsm]))
    exact { hadv with }
  | rebuild _ _ hrebuild =>
    have hu := hd.rebuild hrebuild
    exact { hu with }
  | _ => exact { hd with }

/-- Every micro-step keeps the invariants of the block. -/
theorem microStep_blockInv {s t : State} (h : BlockInv s) (hmicro : microStep s = .next t) : BlockInv t := by
  obtain ⟨hd, hr, hp⟩ := blockInv_iff.mp h
  have htaken := microStep_taken hmicro
  exact blockInv_iff.mpr
    ⟨htaken.displayInv hd hr, htaken.refreshInv hr hd.maps, fun w got hport => hp w got (htaken.port_eq ▸ hport)⟩

/-- Every command keeps the invariants of the block. -/
theorem exec_blockInv {i : Instr} {s t : State} (h : BlockInv s) (hexec : exec i s = .next t) : BlockInv t := by
  obtain ⟨hd, hr, hp⟩ := blockInv_iff.mp h
  obtain ⟨u, st, n, heff, rfl⟩ := exec_effect hexec
  have hu : BlockInv u :=
    blockInv_iff.mpr ⟨heff.displayInv hd, heff.refreshInv hr, fun w got hport => hp w got (heff.port_eq ▸ hport)⟩
  exact { hu with }

/-- The extra step of `mixed` keeps the invariants of the block: its REBUILD falls between two frames. -/
theorem midpassStep_blockInv {s t : State} (h : BlockInv s) (hmidpass : midpassStep s = .next t) : BlockInv t := by
  obtain ⟨-, rfl⟩ | ⟨⟨-, hfsm, -, -⟩, hrebuild⟩ := midpassStep_eq_next.mp hmidpass
  · exact h
  · obtain ⟨hd, hr, hp⟩ := blockInv_iff.mp h
    have hconf : s.configured = true := hr.configured (by simp [hfsm])
    have hload : s.load = true := hr.load_eq_true (by simp [hfsm, Fsm.inFrame])
    have hdigit := hr.digit (.inl hfsm)
    have hshaped := rebuild_framesShaped (hd.maps hconf) hrebuild
    refine blockInv_iff.mpr ⟨hd.rebuild hrebuild, ?_, fun w got hport => hp w got (rebuild_port_eq hrebuild ▸ hport)⟩
    obtain ⟨f, -, rfl⟩ := rebuild_eq_ok.mp hrebuild
    exact .of_txLow hfsm hconf hload hdigit hr.bit hshaped

/-- Settles O51, by the event that the step takes; which events wait is no part of the invariants. -/
theorem invariantsKept : Obligations.InvariantsKept := by
  intro s t h hstep
  have hpast : BlockInv s.pastEvent := { h with }
  cases step_taken hstep with
  | micro _ hmicro => exact microStep_blockInv hpast hmicro
  | reset => exact resetEvent_blockInv s.pastEvent
  | command hexec =>
    have hidle : BlockInv { s.pastEvent with port := .idle } := { h with port := portInv_of_idle rfl }
    exact exec_blockInv hidle hexec
  | @receive w got hmissing =>
    refine { h with port := fun w' got' hport => ?_ }
    cases hport
    exact hmissing
  | midpass hmidpass => exact midpassStep_blockInv hpast hmidpass
  | tick | brightness => exact { h with }

end Sys2Proof.Machine
end

section
/-! PROOFS. What the spec leaves without a value cannot be read (R52, 93 U7; notes/assumptions/4.md, 5.md, 18.md). -/

namespace Sys2Proof.Machine

/-- A read of the text where no character is stored faults (notes/assumptions/4.md). -/
theorem textRead_of_no_cell {s : State} {k : Nat} (h : cellRead s.text k = none) :
    textRead s k = .error (.textUndefined k) := by
  unfold textRead
  split
  · rw [h]
  · rfl

/-- The TX_LOW micro-step faults at an entry that `FRAME` does not have (notes/assumptions/18.md). -/
theorem microTxLow_of_no_entry {s : State} (h : 20 ≤ s.digitIdx.toNat) :
    microTxLow s = .fault (.noSuchPosition s.digitIdx.toNat) := by
  have hread : frameRead s s.digitIdx.toNat = .error (.noSuchPosition s.digitIdx.toNat) := by
    unfold frameRead
    rw [Vector.getElem?_eq_none h]
  unfold microTxLow
  rw [hread]
  rfl

/-- Settles O55: each clause is what one read answers; TX_LOW reads the entry of `FRAME` that `digit_idx` names. -/
theorem unwrittenReadsFault : Obligations.UnwrittenReadsFault := by
  refine ⟨fun _ _ hk => textRead_of_length_le hk, fun _ _ hnone => textRead_of_no_cell hnone,
    fun _ _ _ hk hc => textRead_eq_ok.mpr ⟨hk, hc⟩, fun s p hp => ?_, fun s hnext hfsm hdigit => ?_⟩
  · exact ⟨s.frame[p], Vector.getElem?_eq_getElem hp, frameRead_of_lt hp⟩
  · rw [step_of_microNext hnext]
    exact (microStep_txLow (s := s.pastEvent) hfsm).trans (microTxLow_of_no_entry hdigit)

end Sys2Proof.Machine
end

section
/-! PROOFS. The command port: what each word on it does, and how a header and its payload become one command (R62, R80). -/

namespace Sys2Proof.Machine

variable {s : State} {h : Word} {got : List Byte}

/-- A header while a command is arriving is refused (R62). -/
theorem takeHeader_of_receiving (h' : Word) (hport : s.port = .receiving h got) :
    takeHeader h' s = .refused .headerDuringCommand := by
  unfold takeHeader; rw [hport]

/-- A header with `N > 0` waits for its payload (R80). -/
theorem takeHeader_of_payload (hport : s.port = .idle) (hn : 0 < hdrN h) :
    takeHeader h s = .next { s with port := .receiving h [] } := by
  unfold takeHeader; rw [hport]; exact if_neg (by omega)

/-- A header with `N = 0` performs its command (R80). -/
theorem takeHeader_of_no_payload (hport : s.port = .idle) (hn : hdrN h = 0) :
    takeHeader h s = exec (decodeCommand h []) { s with port := .idle } := by
  unfold takeHeader; rw [hport]; exact (if_pos hn).trans (performCommand_eq hn s)

/-- A payload byte with no command in progress is refused (R80). -/
theorem takePayload_of_idle (b : Byte) (hport : s.port = .idle) : takePayload b s = .refused .payloadOutsideCommand := by
  unfold takePayload; rw [hport]

/-- A payload byte that leaves others missing joins those received (R80). -/
theorem takePayload_of_missing (b : Byte) (hport : s.port = .receiving h got) (hmissing : got.length + 1 < hdrN h) :
    takePayload b s = .next { s with port := .receiving h (got ++ [b]) } := by
  unfold takePayload; rw [hport]; exact if_pos hmissing

/-- The last payload byte performs the command (R80). -/
theorem takePayload_of_last (b : Byte) (hport : s.port = .receiving h got) (hlast : got.length + 1 = hdrN h) :
    takePayload b s = exec (decodeCommand h (got ++ [b])) { s with port := .idle } := by
  unfold takePayload; rw [hport]
  exact (if_neg (by omega)).trans (performCommand_eq (by simp [hlast]) s)

/-- Settles O7: the step takes the waiting word, which the port refuses in the state it is in. -/
theorem portRefusesProtocolErrors : Obligations.PortRefusesProtocolErrors := by
  refine ⟨fun s h h' got rest hport hev => ?_, fun s b rest hport hev => ?_⟩
  · rw [step_of_event hev]; exact takeHeader_of_receiving h' hport
  · rw [step_of_event hev]; exact takePayload_of_idle b hport

/-- A run ends with its last step. -/
theorem run_snoc {n : Nat} {s t : State} (hrun : Host.Core.run Sys2Proof.core n s = .next t) :
    Host.Core.run Sys2Proof.core (n + 1) s = step t :=
  (run_add hrun).trans (run_one t)

/-- `s` with the header `h` and the first `k` bytes of its payload `pl` received, and the other bytes waiting before `rest`. -/
def State.received (s : State) (h : Word) (pl : List Byte) (rest : List Event) (k : Nat) : State :=
  { s with port := .receiving h (pl.take k), events := (pl.drop k).map .payload ++ rest }

variable {pl : List Byte} {rest : List Event} {k : Nat}

/-- The port while a payload is arriving holds the header and the bytes received. -/
theorem received_port (es : List Event) :
    ({ s.received h pl rest k with events := es } : State).port = .receiving h (pl.take k) := rfl

/-- The next event of a payload that is arriving is its next byte. -/
theorem received_events (hk : k < pl.length) :
    (s.received h pl rest k).events = .payload pl[k] :: ((pl.drop (k + 1)).map .payload ++ rest) := by
  simp only [State.received]
  rw [List.drop_eq_getElem_cons hk]
  rfl

/-- A byte that is not the last is received, and nothing else happens (R80). -/
theorem step_received (hlen : pl.length = hdrN h) (hk : k + 1 < pl.length) :
    step (s.received h pl rest k) = .next (s.received h pl rest (k + 1)) := by
  rw [step_of_event (received_events (by omega))]
  refine (takePayload_of_missing _ (received_port _) (by rw [List.length_take]; omega)).trans ?_
  rw [List.take_concat_get' pl k (by omega)]
  rfl

/-- The last byte performs the command (R80). -/
theorem step_received_last (hlen : pl.length = hdrN h) (hk : k + 1 = pl.length) :
    step (s.received h pl rest k) = exec (decodeCommand h pl) { s with port := .idle, events := rest } := by
  rw [step_of_event (received_events (by omega))]
  refine (takePayload_of_last _ (received_port _) (by rw [List.length_take]; omega)).trans ?_
  rw [List.take_concat_get' pl k (by omega), hk, List.take_length, List.drop_length]
  rfl

/-- Before the last byte of its payload a command is only received (R80). -/
theorem run_received (hport : s.port = .idle) (hlen : pl.length = hdrN h)
    (hev : s.events = .header h :: (pl.map .payload ++ rest)) (hk : k < pl.length) :
    Host.Core.run Sys2Proof.core (k + 1) s = .next (s.received h pl rest k) := by
  induction k with
  | zero =>
    rw [run_one, step_of_event hev]
    exact takeHeader_of_payload hport (by omega)
  | succ k ih => exact (run_snoc (ih (by omega))).trans (step_received hlen hk)

/-- The header and its payload together perform the command, the port idle again (R80). -/
theorem run_command (hport : s.port = .idle) (hlen : pl.length = hdrN h)
    (hev : s.events = .header h :: (pl.map .payload ++ rest)) :
    Host.Core.run Sys2Proof.core (pl.length + 1) s = exec (decodeCommand h pl) { s with port := .idle, events := rest } := by
  cases hpl : pl.length with
  | zero =>
    obtain rfl := List.eq_nil_of_length_eq_zero hpl
    rw [run_one, step_of_event hev]
    exact takeHeader_of_no_payload hport hlen.symm
  | succ n => rw [run_snoc (run_received hport hlen hev (by omega)), step_received_last hlen hpl.symm]

/-- Settles O5: the run up to the last word only receives, and the last word performs the command. -/
theorem portDeliversCommand : Obligations.PortDeliversCommand := by
  intro s h pl rest hport hlen hev
  refine ⟨?_, fun n hpos hle => ?_⟩
  · rw [run_command hport hlen hev, ← hport]
  · obtain ⟨k, rfl⟩ := Nat.exists_eq_add_of_le' hpos
    exact ⟨_, run_received hport hlen hev hle, rfl⟩

end Sys2Proof.Machine
end

section
/-! PROOFS. The transmission of one frame (R54, R186 to R190, R237). -/

namespace Sys2Proof.Machine

/-- The first `k` bit events of the transmission of `f`, most significant bit first (R54, R187). -/
def bitEvents (f : Frame) (k : Nat) : List SerialEvent := (List.range k).map fun i => .bit (f.getLsbD (23 - i))

/-- A transmission is its 24 bit events between `LoadLow` and `LoadHigh` (R189). -/
theorem frameEvents_eq (f : Frame) : frameEvents f = .loadLow :: bitEvents f 24 ++ [.loadHigh] := rfl

/-- The next bit event of a transmission. -/
theorem bitEvents_succ (f : Frame) (k : Nat) : bitEvents f (k + 1) = bitEvents f k ++ [.bit (f.getLsbD (23 - k))] := by
  simp [bitEvents, List.range_succ]

/-- The chip's shift register after `k` bits of a frame: the last of them at stage 0, the others above it, as far as its 20 stages
go, whatever it held before (R237, R239). -/
theorem getLsbD_foldl_chipShift (sr : PinMask) (f : Frame) {k i : Nat} (hk : k ≤ 24) (hi : i < 20) (hik : i < k) :
    ((bitEvents f k).foldl chipShift sr).getLsbD i = f.getLsbD (24 - k + i) := by
  induction k generalizing i with
  | zero => omega
  | succ k ih =>
    rw [bitEvents_succ, List.foldl_append, List.foldl_cons, List.foldl_nil, getLsbD_chipShift_bit _ _ hi]
    split
    · congr 1; omega
    · rw [ih (by omega) (by omega) (by omega)]
      congr 1; omega

/-- After a whole frame the chip's shift register holds its bits 19:0 (R237). -/
theorem foldl_chipShift_frame (sr : PinMask) (f : Frame) : (bitEvents f 24).foldl chipShift sr = f.extractLsb' 0 20 := by
  refine BitVec.eq_of_getLsbD_eq fun i hi => ?_
  rw [getLsbD_foldl_chipShift sr f le_rfl hi (by omega), BitVec.getLsbD_extractLsb']
  simp [hi]

/-- `s` with `LoadLow` and the first `k` bits of the frame `f` sent (R186, R187). -/
def State.shifting (s : State) (f : Frame) (k : Nat) : State :=
  { s with
    trace := s.trace ++ .loadLow :: bitEvents f k
    load := false
    din := if k = 0 then s.din else f.getLsbD (24 - k)
    shreg := f
    bitIdx := BitVec.ofNat 5 (23 - k)
    chipSr := (bitEvents f k).foldl chipShift s.chipSr
    fsm := if k < 24 then .txShift else .txHigh }

/-- `s` with the frame `f` sent and shown by the chip: the pass goes on to the next position, or ends after the last (R188). -/
def State.transmitted (s : State) (f : Frame) : State :=
  { s with
    trace := s.trace ++ frameEvents f
    load := true
    din := f.getLsbD 0
    shreg := f
    bitIdx := 0
    chipSr := f.extractLsb' 0 20
    chipOut := f.extractLsb' 0 20
    digitIdx := if s.digitIdx.toNat + 1 = s.ndig.toNat then s.digitIdx else s.digitIdx + 1
    fsm := if s.digitIdx.toNat + 1 = s.ndig.toNat then .idle else .txLow }

variable {s : State} {f : Frame} {k : Nat}

/-- While bits are sent the FSM is not in IDLE. -/
theorem shifting_fsm_ne_idle (s : State) (f : Frame) (k : Nat) : (s.shifting f k).fsm ≠ .idle := by
  simp only [State.shifting]; split <;> decide

/-- The bit that `bit_idx` names while bits are sent (R187). -/
theorem shifting_bitIdx_toNat (s : State) (f : Frame) (k : Nat) : (s.shifting f k).bitIdx.toNat = 23 - k := by
  simp only [State.shifting, BitVec.toNat_ofNat]; omega

/-- `bit_idx` is 0 when all bits but one are sent. -/
theorem shifting_bitIdx_eq_zero (hk : k < 24) : (s.shifting f k).bitIdx = 0 ↔ k = 23 := by
  rw [← BitVec.toNat_inj, shifting_bitIdx_toNat]
  show 23 - k = 0 ↔ k = 23
  omega

/-- The TX_LOW micro-step sends `LoadLow` (R186). -/
theorem step_txLow (hev : s.events = []) (hfsm : s.fsm = .txLow) (hframe : s.frame[s.digitIdx.toNat]? = some f) :
    step s = .next (s.shifting f 0) := by
  rw [step_of_no_event hev, microStep_txLow hfsm]
  exact microTxLow_eq_next.mpr ⟨f, hframe, rfl⟩

/-- A TX_SHIFT micro-step sends one bit more (R187). -/
theorem step_shifting (hev : s.events = []) (hk : k < 24) : step (s.shifting f k) = .next (s.shifting f (k + 1)) := by
  have hfsm : (s.shifting f k).fsm = .txShift := if_pos hk
  rw [step_of_no_event (s := s.shifting f k) hev, microStep_txShift hfsm, microTxShift_eq]
  simp only [shifting_bitIdx_eq_zero hk, shifting_bitIdx_toNat]
  obtain rfl | hlt : k = 23 ∨ k < 23 := by omega
  · simp [State.shifting, bitEvents_succ]
  · have hprev : BitVec.ofNat 5 (23 - k) - 1#5 = BitVec.ofNat 5 (22 - k) := by bv_omega
    simp [State.shifting, bitEvents_succ, hprev, hk, hlt, hlt.ne]

/-- The TX_HIGH micro-step shows the frame (R188, R237). -/
theorem step_shifting_last (hev : s.events = []) : step (s.shifting f 24) = .next (s.transmitted f) := by
  rw [step_of_no_event (s := s.shifting f 24) hev, microStep_txHigh rfl, microTxHigh_eq]
  congr 1
  simp [State.shifting, State.transmitted, foldl_chipShift_frame, frameEvents_eq]

/-- After `k + 1` micro-steps of a transmission `k` bits are sent (R189). -/
theorem run_shifting (hev : s.events = []) (hfsm : s.fsm = .txLow) (hframe : s.frame[s.digitIdx.toNat]? = some f) (hk : k ≤ 24) :
    Host.Core.run Sys2Proof.core (k + 1) s = .next (s.shifting f k) := by
  induction k with
  | zero => exact (run_one s).trans (step_txLow hev hfsm hframe)
  | succ k ih => exact (run_snoc (ih (by omega))).trans (step_shifting hev hk)

/-- A transmission takes 26 micro-steps (R189). -/
theorem run_transmitted (hev : s.events = []) (hfsm : s.fsm = .txLow) (hframe : s.frame[s.digitIdx.toNat]? = some f) :
    Host.Core.run Sys2Proof.core 26 s = .next (s.transmitted f) :=
  (run_snoc (run_shifting hev hfsm hframe le_rfl)).trans (step_shifting_last hev)

/-- Settles O44: the 26 micro-steps are `LoadLow`, 24 bits and `LoadHigh`, which alone writes the chip's outputs. -/
theorem frameTransmission : Obligations.FrameTransmission := by
  intro s f hev hfsm hframe
  refine ⟨fun n hpos hle => ?_, _, run_transmitted hev hfsm hframe, rfl⟩
  obtain ⟨k, rfl⟩ := Nat.exists_eq_add_of_le' hpos
  exact ⟨_, run_shifting hev hfsm hframe (by omega), rfl, rfl, rfl⟩

end Sys2Proof.Machine
end

section
/-! PROOFS. The way into a pass: tick entry, ADVANCE and REBUILD (R182 to R185). -/

namespace Sys2Proof.Machine

/-- `s` in a pass that has taken the pending tick, with the FSM in `m` (R182). -/
def State.inPass (s : State) (m : Fsm) : State := { s with tickPending := false, fsm := m }

/-- `s` in a pass, before the `LoadLow` of the first position (R185). -/
def State.passStart (s : State) : State := { s with tickPending := false, digitIdx := 0, fsm := .txLow }

variable {s u : State} {m : Fsm}

/-! The timer neither reads nor writes what being in a pass changes (R200). -/

/-- Counting a cycle does not depend on the FSM. -/
theorem countCycle_inPass (s : State) (m : Fsm) : countCycle (s.inPass m) = (countCycle s).inPass m := by
  unfold countCycle
  rw [apply_ite (State.inPass · m)]
  rfl

/-- Counting a demo cycle does not depend on the FSM. -/
theorem countDemoCycle_inPass (s : State) (m : Fsm) : countDemoCycle (s.inPass m) = (countDemoCycle s).inPass m := by
  unfold countDemoCycle
  rw [apply_ite (State.inPass · m)]
  rfl

/-- BLINK_TOGGLE does not depend on the FSM (R203). -/
theorem blinkToggle_inPass (s : State) (m : Fsm) : blinkToggle (s.inPass m) = (blinkToggle s).inPass m := by
  unfold blinkToggle
  rw [apply_ite (State.inPass · m)]
  exact if_congr Iff.rfl rfl (congrArg State.markChanged (countCycle_inPass { s with blinkOn := true } m))

/-- SCROLL_STEP does not depend on the FSM (R205). -/
theorem scrollStep_inPass (s : State) (m : Fsm) : scrollStep (s.inPass m) = (scrollStep s).inPass m := by
  unfold scrollStep
  rw [apply_ite (State.inPass · m), apply_ite (State.inPass · m)]
  exact if_congr Iff.rfl (if_congr Iff.rfl (countCycle_inPass ({ s with visibleIdx := 0 } : State).markChanged m) rfl) rfl

/-- DEMO_STEP does not depend on the FSM (R207). -/
theorem demoStep_inPass (s : State) (m : Fsm) : demoStep (s.inPass m) = (demoStep s).inPass m := by
  unfold demoStep
  rw [apply_ite (State.inPass · m)]
  exact if_congr Iff.rfl (countDemoCycle_inPass ({ s with demoIdx := 0 } : State).markChanged m) rfl

/-- A tick towards an interval that ends in `op` does not depend on the FSM, if `op` does not (R200). -/
theorem interval_inPass {op : State → State} (hop : ∀ s : State, op (s.inPass m) = (op s).inPass m) (s : State) (period : Nat) :
    (if timerDue period (s.inPass m) then op (timerTick period (s.inPass m)) else timerTick period (s.inPass m)) =
      (if timerDue period s then op (timerTick period s) else timerTick period s).inPass m := by
  rw [apply_ite (State.inPass · m)]
  exact if_congr Iff.rfl (hop (timerTick period s)) rfl

/-- ADVANCE does not depend on the FSM (R200). -/
theorem advance_inPass (s : State) (m : Fsm) : advance (s.inPass m) = (advance s).inPass m := by
  have hmode : (s.inPass m).demoMode = s.demoMode := rfl
  have heffect : (s.inPass m).effect = s.effect := rfl
  unfold advance
  rw [hmode, heffect]
  cases s.demoMode with
  | scrollFont => exact interval_inPass (demoStep_inPass · m) s s.cfg.scrollTicks
  | off =>
    cases s.effect with
    | blink => exact interval_inPass (blinkToggle_inPass · m) s s.cfg.blinkHalfTicks
    | scrollLeft => exact interval_inPass (scrollStep_inPass · m) s s.cfg.scrollTicks
    | none => rfl

/-- ADVANCE keeps the frames fresh: it sets the dirty flag with what it changes (R166, R200). -/
theorem FramesFresh.advance (h : FramesFresh s) : FramesFresh (advance s) := by
  obtain hchanged | heq := advance_changed_or_timer s
  · exact .of_changed hchanged
  · rw [heq]; exact h.of_sameReads

/-- REBUILD does not depend on the FSM (R160). -/
theorem rebuild_inPass (h : rebuild s = .ok u) (m : Fsm) : rebuild (s.inPass m) = .ok (u.inPass m) := by
  have hreads : SameReads s (s.inPass m) := by constructor <;> rfl
  rw [hreads.rebuild rfl h]
  obtain ⟨f, -, rfl⟩ := rebuild_eq_ok.mp h
  rfl

/-- REBUILD can read every character before the end of its walk: of the visible substring, or of the demo's text (R23, R53). -/
theorem sourceRead_of_lt_stop (h : TextReadable s) {k : Nat} (hk : k < (walkPlan s).stop) : ∃ c, sourceRead s k = .ok c := by
  cases hdemo : s.demoMode with
  | scrollFont => exact ⟨BitVec.ofNat 8 (0x20 + k), by simp only [sourceRead, hdemo]⟩
  | off =>
    obtain ⟨hvisible, hheld⟩ := h
    simp only [walkPlan, hdemo] at hk
    obtain ⟨c, hc⟩ := Option.isSome_iff_exists.mp (hheld k (by omega))
    refine ⟨c, ?_⟩
    simp only [sourceRead, hdemo]
    exact textRead_eq_ok.mpr ⟨by omega, hc⟩

/-- REBUILD completes where the maps are valid and the text is readable (R13, R23, R52). -/
theorem exists_rebuild (hm : MapsValid s) (ht : TextReadable s) : ∃ u, rebuild s = .ok u := by
  obtain ⟨-, -, hsum, -, -⟩ := hm
  have hpins : ∀ q, 0 ≤ q → q < 0 + s.ndig.toNat → ∃ pin, posPin s q = .ok pin :=
    fun q _ hq => ⟨s.posMap[q], posPin_of_lt (by omega)⟩
  obtain ⟨file, hfile⟩ := buildFrames_ok s.ndig.toNat 0 (walkPlan s).start s.frame hpins
    fun k _ hk => sourceRead_of_lt_stop ht hk
  exact ⟨_, rebuild_eq_ok.mpr ⟨file, hfile, rfl⟩⟩

/-- REBUILD of a configured block completes (R13, R23). -/
theorem DisplayInv.exists_rebuild (h : DisplayInv s) (hconf : s.configured = true) : ∃ u, Machine.rebuild s = .ok u :=
  Machine.exists_rebuild (h.maps hconf) ⟨h.visible, h.textHeld⟩

/-- REBUILD after ADVANCE writes neither the link nor the events that wait. -/
theorem rebuild_advance_link (h : rebuild (advance s) = .ok u) :
    u.events = s.events ∧ u.load = s.load ∧ u.trace = s.trace := by
  obtain ⟨f, -, rfl⟩ := rebuild_eq_ok.mp h
  rw [advance_frame]
  exact ⟨rfl, rfl, rfl⟩

/-- Where the frames are fresh the REBUILD micro-step leaves the frames of REBUILD, which a clean flag finds in place (R166, R185). -/
theorem microRebuild_of_fresh (hfresh : FramesFresh s) (hconf : s.configured = true) (h : rebuild s = .ok u) :
    microRebuild s = .next { u with digitIdx := 0, fsm := .txLow } := by
  rw [microRebuild_eq_next]
  obtain hchanged | hclean := Bool.eq_false_or_eq_true s.contentChanged
  · exact .inr ⟨hchanged, u, h, rfl⟩
  · obtain rfl : s = u := Except.ok.inj ((hfresh hconf hclean).symm.trans h)
    exact .inl ⟨hclean, rfl⟩

/-- The micro-step that takes the tick of a configured block (R182). -/
theorem step_enterPass (hev : s.events = []) (hfsm : s.fsm = .idle) (htick : s.tickPending = true)
    (hconf : s.configured = true) : step s = .next (s.inPass .advance) := by
  rw [step_of_no_event hev, microStep_eq, hfsm]
  simp only [htick, if_true, enterPass, hconf, State.inPass]

/-- The ADVANCE micro-step of a pass (R183). -/
theorem step_inPass_advance (hev : s.events = []) : step (s.inPass .advance) = .next ((advance s).inPass .rebuild) := by
  rw [step_of_no_event (s := s.inPass .advance) hev, microStep_advance rfl, microAdvance, advance_inPass]
  rfl

/-- The REBUILD micro-step of a pass (R185). -/
theorem step_inPass_rebuild (hev : s.events = []) (hfresh : FramesFresh s) (hconf : s.configured = true)
    (h : rebuild s = .ok u) : step (s.inPass .rebuild) = .next u.passStart := by
  have hfresh' : FramesFresh (s.inPass .rebuild) := hfresh.of_sameReads
  rw [step_of_no_event (s := s.inPass .rebuild) hev, microStep_rebuild rfl]
  exact microRebuild_of_fresh hfresh' hconf (rebuild_inPass h .rebuild)

/-- The three micro-steps from the tick to the start of the transmissions (R182 to R185, R192). -/
theorem run_into_pass (hfresh : FramesFresh s) (hev : s.events = []) (hfsm : s.fsm = .idle) (htick : s.tickPending = true)
    (hconf : s.configured = true) (h : rebuild (advance s) = .ok u) :
    Host.Core.run Sys2Proof.core 1 s = .next (s.inPass .advance) ∧
      Host.Core.run Sys2Proof.core 2 s = .next ((advance s).inPass .rebuild) ∧
      Host.Core.run Sys2Proof.core 3 s = .next u.passStart := by
  have hevAdv : (advance s).events = [] := by rw [advance_frame]; exact hev
  have hconfAdv : (advance s).configured = true := (advance_sameConfiguration s).configured.trans hconf
  have hrun1 := (run_one s).trans (step_enterPass hev hfsm htick hconf)
  have hrun2 := (run_snoc hrun1).trans (step_inPass_advance hev)
  exact ⟨hrun1, hrun2, (run_snoc hrun2).trans (step_inPass_rebuild hevAdv hfresh.advance hconfAdv h)⟩

end Sys2Proof.Machine
end

section
/-! PROOFS. A whole pass: every position's frame is transmitted, in order (R59, R189, R192). -/

namespace Sys2Proof.Machine

/-- `s` with the registers of the refresh FSM and of the link that `v` has, the latch line high. -/
def State.linked (s v : State) : State :=
  { s with
    fsm := v.fsm
    digitIdx := v.digitIdx
    bitIdx := v.bitIdx
    shreg := v.shreg
    load := true
    din := v.din
    trace := v.trace
    chipSr := v.chipSr
    chipOut := v.chipOut }

/-- What differs from `v` in the FSM and the link alone differs from `s` in them alone, if `v` does. -/
theorem linked_trans {s v w : State} (hv : v = s.linked v) (hw : w = v.linked w) : w = s.linked w :=
  hw.trans (congrArg (State.linked · w) hv : v.linked w = (s.linked v).linked w)

/-- `v` is what a pass that starts its transmission in `r` makes of it with the frames of the first `p` positions sent (R189). -/
structure FramesSent (r : State) (p : Nat) (v : State) : Prop where
  same : v = r.linked v
  trace : v.trace = r.trace ++ ((r.frame.toList.take p).map frameEvents).flatten
  digit : v.digitIdx.toNat = min p (r.ndig.toNat - 1)
  fsm : v.fsm = if p = r.ndig.toNat then .idle else .txLow
  out : ∀ f, (r.frame.toList.take p).getLast? = some f → v.chipOut = f.extractLsb' 0 20

variable {r v u : State} {p n : Nat} {f : Frame}

namespace FramesSent

theorem ndig_eq (h : FramesSent r p v) : v.ndig = r.ndig := by rw [h.same]; rfl
theorem frame_eq (h : FramesSent r p v) : v.frame = r.frame := by rw [h.same]; rfl
theorem events_eq (h : FramesSent r p v) : v.events = r.events := by rw [h.same]; rfl

/-- Before the last frame is sent `digit_idx` is the number of frames sent. -/
theorem digit_eq (h : FramesSent r p v) (hp : p < r.ndig.toNat) : v.digitIdx.toNat = p := by rw [h.digit]; omega

/-- Before the last frame is sent the FSM waits to send the next. -/
theorem fsm_eq (h : FramesSent r p v) (hp : p < r.ndig.toNat) : v.fsm = .txLow := by rw [h.fsm, if_neg hp.ne]

/-- At the start of the transmissions no frame is sent. -/
theorem start (hload : u.load = true) (hn : 1 ≤ u.ndig.toNat) : FramesSent u.passStart 0 u.passStart where
  same := by simp only [State.linked, State.passStart, hload]
  trace := by simp
  digit := (Nat.zero_min _).symm
  fsm := (if_neg (show 0 ≠ u.ndig.toNat by omega)).symm
  out := by simp

/-- A transmission sends one frame more (R188, R189). -/
theorem next (h : FramesSent r p v) (hp : p < r.ndig.toNat) (hf : r.frame[p]? = some f) :
    FramesSent r (p + 1) (v.transmitted f) := by
  have htake : r.frame.toList.take (p + 1) = r.frame.toList.take p ++ [f] := by
    rw [List.take_add_one, Vector.getElem?_toList, hf, Option.toList_some]
  have hdigit := h.digit_eq hp
  refine ⟨linked_trans h.same rfl, ?_, ?_, ?_, fun g hg => ?_⟩
  · simp only [State.transmitted, h.trace, htake, List.map_append, List.flatten_append, List.append_assoc]
    simp
  · simp only [State.transmitted, h.ndig_eq, hdigit]
    split
    · omega
    · bv_omega
  · simp only [State.transmitted, h.ndig_eq, hdigit]
  · rw [htake, List.getLast?_concat] at hg
    obtain rfl := Option.some.inj hg
    rfl

/-- Where the FSM waits to send a frame, the next 26 micro-steps send it (R189). -/
theorem run_next (h : FramesSent r p v) (hev : r.events = []) (hp : p < r.ndig.toNat) (hf : r.frame[p]? = some f) :
    Host.Core.run Sys2Proof.core 26 v = .next (v.transmitted f) :=
  run_transmitted (h.events_eq.trans hev) (h.fsm_eq hp) (by rw [h.frame_eq, h.digit_eq hp, hf])

/-- Before the last of these micro-steps the FSM is not in IDLE. -/
theorem run_ne_idle (h : FramesSent r p v) (hev : r.events = []) (hp : p < r.ndig.toNat) (hf : r.frame[p]? = some f)
    (hn : n < 26) : ∃ w, Host.Core.run Sys2Proof.core n v = .next w ∧ w.fsm ≠ .idle := by
  cases n with
  | zero => exact ⟨v, rfl, by rw [h.fsm_eq hp]; decide⟩
  | succ k =>
    exact ⟨_, run_shifting (h.events_eq.trans hev) (h.fsm_eq hp) (by rw [h.frame_eq, h.digit_eq hp, hf]) (by omega),
      shifting_fsm_ne_idle v f k⟩

end FramesSent

/-- After `26 * p` micro-steps from the start of the transmissions `p` frames are sent (R189). -/
theorem run_framesSent (hev : u.events = []) (hload : u.load = true) (hpos : 1 ≤ u.ndig.toNat) (hle : u.ndig.toNat ≤ 20)
    (hp : p ≤ u.ndig.toNat) :
    ∃ v, Host.Core.run Sys2Proof.core (26 * p) u.passStart = .next v ∧ FramesSent u.passStart p v := by
  induction p with
  | zero => exact ⟨_, rfl, .start hload hpos⟩
  | succ p ih =>
    obtain ⟨v, hrun, hsent⟩ := ih (by omega)
    have hf : u.passStart.frame[p]? = some u.frame[p] := Vector.getElem?_eq_getElem (by omega)
    exact ⟨_, (run_add hrun).trans (hsent.run_next hev hp hf), hsent.next hp hf⟩

/-- Before the last frame is sent the FSM is not in IDLE (R192). -/
theorem run_passStart_ne_idle (hev : u.events = []) (hload : u.load = true) (hle : u.ndig.toNat ≤ 20)
    (hn : n < 26 * u.ndig.toNat) : ∃ w, Host.Core.run Sys2Proof.core n u.passStart = .next w ∧ w.fsm ≠ .idle := by
  have hp : n / 26 < u.ndig.toNat := by omega
  obtain ⟨v, hrun, hsent⟩ := run_framesSent hev hload (by omega) hle hp.le
  have hf : u.passStart.frame[n / 26]? = some u.frame[n / 26] := Vector.getElem?_eq_getElem (by omega)
  obtain ⟨w, hw, hbusy⟩ := hsent.run_ne_idle hev hp hf (Nat.mod_lt n (by omega))
  exact ⟨w, by rw [← Nat.div_add_mod n 26, run_add hrun, hw], hbusy⟩

/-- What REBUILD leaves as the frame of a position has its shape (R168 (a)). -/
theorem rebuild_frame_shape {s : State} (hm : MapsValid s) (hu : rebuild s = .ok u)
    (hf : (u.frame.toList.take u.ndig.toNat)[p]? = some f) : u.frame[p]? = some f ∧ FrameShape s p f := by
  rw [List.getElem?_take, Vector.getElem?_toList] at hf
  split at hf
  · next hp =>
    have hsame := rebuild_sameConfiguration hu
    exact ⟨hf, (rebuild_framesShaped hm hu p f hp hf).of_maps hsame.segMap.symm hsame.posMap.symm hsame.nseg.symm hsame.ndig.symm⟩
  · cases hf

/-- Settles O45: three micro-steps lead to the start of the transmissions with the frames of REBUILD in place, and 26 more send each
position's frame. -/
theorem wholePass : Obligations.WholePass := by
  intro s hinv hfresh hev hfsm htick hconf
  obtain ⟨hdisplay, hrefresh, -⟩ := blockInv_iff.mp hinv
  have hadv := advance_sameConfiguration s
  have hconfAdv : (advance s).configured = true := hadv.configured.trans hconf
  have hdisplayAdv : DisplayInv (advance s) := hdisplay.advance hconf
  obtain ⟨u, hu⟩ := hdisplayAdv.exists_rebuild hconfAdv
  obtain ⟨huev, huload, hutrace⟩ := rebuild_advance_link hu
  rw [hev] at huev
  rw [hrefresh.load_eq_true (by simp [hfsm, Fsm.inFrame])] at huload
  obtain ⟨-, hpos, hsum, -, -⟩ := hdisplay.maps hconf
  rw [← (hadv.trans (rebuild_sameConfiguration hu)).ndig] at hpos hsum ⊢
  have hle : u.ndig.toNat ≤ 20 := by omega
  obtain ⟨hrun1, hrun2, hrun3⟩ := run_into_pass hfresh hev hfsm htick hconf hu
  obtain ⟨t, hrun, hsent⟩ := run_framesSent huev huload hpos hle le_rfl
  refine ⟨u, t, u.frame.toList.take u.ndig.toNat, hu, ?_, fun p f hf => ?_, fun n hn hbusy => ?_, ?_, ?_, ?_, hsent.out, ?_⟩
  · rw [List.length_take, Vector.length_toList, Nat.min_eq_left hle]
  · obtain ⟨hframe, hshape⟩ := rebuild_frame_shape (hdisplayAdv.maps hconfAdv) hu hf
    exact ⟨hframe, hshape.of_maps hadv.segMap.symm hadv.posMap.symm hadv.nseg.symm hadv.ndig.symm⟩
  · match n, hn with
    | 1, _ => exact ⟨_, hrun1, (nomatch ·)⟩
    | 2, _ => exact ⟨_, hrun2, (nomatch ·)⟩
    | m + 3, _ =>
      rw [Nat.add_comm m 3, run_add hrun3]
      exact run_passStart_ne_idle huev huload hle (by omega)
  · exact (run_add hrun3).trans hrun
  · rw [hsent.trace, ← hutrace]; rfl
  · rw [hsent.digit]; exact Nat.min_eq_right (Nat.sub_le _ _)
  · have hidle : t.fsm = .idle := hsent.fsm.trans (if_pos rfl)
    rw [hsent.same]
    simp only [State.linked, State.passStart, hidle]

end Sys2Proof.Machine
end

section
/-! PROOFS. Decoding: what the decoder reads from a header's fields, and the round trip (R79 to R85). -/

namespace Sys2Proof.Machine

/-- Settles O1: the round trip of each constructor. -/
theorem decodeEncodeRoundTrip : Obligations.DecodeEncodeRoundTrip := by
  intro i rest hwf
  cases i with
  | setup a b pl => exact Laws.RoundTrip.setup a b pl hwf rest
  | setText a b txt => exact Laws.RoundTrip.setText a b txt hwf rest
  | setTextAlign a => exact Laws.RoundTrip.setTextAlign a hwf rest
  | setTextEffect e c => exact Laws.RoundTrip.setTextEffect e c hwf rest
  | scrollLeft => exact Laws.RoundTrip.scrollLeft hwf rest
  | setDemoMode m c => exact Laws.RoundTrip.setDemoMode m c hwf rest
  | print p txt => exact Laws.RoundTrip.print p txt hwf rest
  | reserved0 => exact Laws.RoundTrip.reserved0 hwf rest
  | reserved8 => exact Laws.RoundTrip.reserved8 hwf rest
  | reserved9 => exact Laws.RoundTrip.reserved9 hwf rest
  | reservedA => exact Laws.RoundTrip.reservedA hwf rest
  | reservedB => exact Laws.RoundTrip.reservedB hwf rest
  | reservedC => exact Laws.RoundTrip.reservedC hwf rest
  | reservedD => exact Laws.RoundTrip.reservedD hwf rest
  | reservedE => exact Laws.RoundTrip.reservedE hwf rest
  | reservedF => exact Laws.RoundTrip.reservedF hwf rest

/-- A header with its `N` payload bytes is its command, and the bytes after them are left over (R80). -/
theorem decode_append {h : Word} {pl : List Byte} (hlen : pl.length = hdrN h) (rest : List Byte) :
    decode h (pl ++ rest) = .ok (decodeCommand h pl, rest) := by
  rw [decode_eq_ok (by rw [List.length_append]; omega), ← hlen, List.take_left, List.drop_left]

/-- The low two bits of a header field (R79). -/
theorem extractLsb'_two_ofNat (a : Nat) : ((BitVec.ofNat 8 a).extractLsb' 0 2).toNat = a % 4 := by
  rw [BitVec.extractLsb'_toNat, BitVec.toNat_ofNat]; omega

/-- The alignment that a field names (R79). -/
theorem decodeAlign_ofNat (a : Nat) :
    decodeAlign (BitVec.ofNat 8 a) = if a % 4 = 1 then .center else if a % 4 = 2 then .right else .left := by
  unfold decodeAlign
  rw [extractLsb'_two_ofNat]
  split <;> simp_all

/-- The effect that a field names (R79). -/
theorem decodeEffect_ofNat (a : Nat) :
    decodeEffect (BitVec.ofNat 8 a) = if a % 4 = 1 then .blink else if a % 4 = 2 then .scrollLeft else .none := by
  unfold decodeEffect
  rw [extractLsb'_two_ofNat]
  split <;> simp_all

/-- The demo mode that a field names (R79). -/
theorem decodeDemoMode_ofNat (a : Nat) : decodeDemoMode (BitVec.ofNat 8 a) = if a % 4 = 1 then .scrollFont else .off := by
  unfold decodeDemoMode
  rw [extractLsb'_two_ofNat]
  split <;> simp_all

/-- Settles O2: the command is the decoder's, whose arm for the opcode reads the operands from the fields. -/
theorem headerDecodesByOpcodeMap : Obligations.HeaderDecodesByOpcodeMap := by
  intro h pl rest op a b hlen hop ha hb
  obtain ⟨hopField, haField, hbField, hnField⟩ := header_fields_toNat h
  rw [← hop] at hopField
  rw [← ha] at haField
  rw [← hb] at hbField
  refine ⟨_, decode_append (hlen.trans hnField.symm) rest, ?_⟩
  unfold decodeCommand
  rw [hopField, haField, hbField, decodeAlign_ofNat, decodeEffect_ofNat, decodeDemoMode_ofNat]
  -- each clause is the decoder's arm at that opcode
  and_intros <;> (intro hcode; rw [hcode]; rfl)

/-- Settles O3: the decoder reads each of the words. -/
theorem decodedWords : Obligations.DecodedWords :=
  ⟨by decide, by decide, by decide, by decide, by decide, by decide, by decide, by decide⟩

end Sys2Proof.Machine
end

section
/-! PROOFS. The step that takes the last word of a command (R80, R120). -/

namespace Sys2Proof.Machine

variable {h : Word} {pl : List Byte}

/-- What the decoder reads from a header and exactly its `N` payload bytes is their command (R80). -/
theorem decodeCommand_of_decode {i : Instr} {rest : List Byte} (hlen : pl.length = hdrN h)
    (hdecode : decode h pl = .ok (i, rest)) : decodeCommand h pl = i := by
  rw [decode_eq_ok hlen.ge, ← hlen, List.take_length] at hdecode
  cases hdecode
  rfl

/-- The payload of an opcode-table row has the length that is asked for. -/
theorem length_tablePayload (nbits w n : Nat) : (tablePayload nbits w n).length = n := by
  rw [tablePayload, List.length_map, List.length_range]

/-- An opcode-table row is the command of its header and payload. -/
theorem decodeCommand_of_decodeTableWord {nbits w : Nat} {i : Instr} (hi : decodeTableWord nbits w = some i) :
    decodeCommand (tableHeader nbits w) (tablePayload nbits w (hdrN (tableHeader nbits w))) = i := by
  unfold decodeTableWord at hi
  split at hi
  · next hdecode =>
    cases hi
    exact decodeCommand_of_decode (length_tablePayload ..) hdecode
  · cases hi

/-- The step that takes the last payload byte performs the command (R80). -/
theorem step_last_payload {s : State} {got : List Byte} {b : Byte} {rest : List Event} (hport : s.port = .receiving h got)
    (hev : s.events = .payload b :: rest) (hlast : got.length + 1 = hdrN h) :
    step s = exec (decodeCommand h (got ++ [b])) { s with port := .idle, events := rest } := by
  rw [step_of_event hev]
  exact takePayload_of_last b hport hlast

/-- The step that takes a header without payload performs the command (R80). -/
theorem step_lone_header {s : State} {rest : List Event} (hport : s.port = .idle) (hev : s.events = .header h :: rest)
    (hn : hdrN h = 0) : step s = exec (decodeCommand h []) { s with port := .idle, events := rest } := by
  rw [step_of_event hev]
  exact takeHeader_of_no_payload hport hn

/-- A command that is presented with all of its payload is performed by the next step (R80). -/
theorem step_presentCommand (s : State) (hlen : pl.length = hdrN h) :
    step (presentCommand h pl s) = exec (decodeCommand h pl) { s with port := .idle } := by
  obtain rfl | ⟨got, b, rfl⟩ := pl.eq_nil_or_concat'
  · exact step_lone_header (s := presentCommand h [] s) rfl rfl hlen.symm
  · have hpresent : presentCommand h (got ++ [b]) s =
        { s with port := .receiving h got, events := .payload b :: s.events } := by
      simp only [presentCommand, List.getLast?_concat, List.dropLast_concat]
    rw [hpresent]
    exact step_last_payload rfl rfl (by simpa using hlen)

/-- Settles O6: whichever word is the last one, the step that takes it performs the command. -/
theorem stepRunsTheDecodedCommand : Obligations.StepRunsTheDecodedCommand := by
  refine ⟨fun s h got b rest i hport hev hlast hdecode => ?_, fun s h rest i hport hev hn hdecode => ?_,
    fun s nbits w i hi => ?_⟩
  · rw [step_last_payload hport hev hlast, decodeCommand_of_decode (by simp [hlast]) hdecode]
  · rw [step_lone_header hport hev hn, decodeCommand_of_decode (pl := []) hn.symm hdecode, ← hport]
  · rw [State.withFetchWord, step_presentCommand s (length_tablePayload ..), decodeCommand_of_decodeTableWord hi]

end Sys2Proof.Machine
end

section
/-! PROOFS. The assembler: what its names stand for, and that what it assembles fits the command port (R81, R86). -/

namespace Sys2Proof.Machine

/-- An alignment's name, without regard to case (R86). -/
theorem alignNamed_iff (n : List Char) : (alignNamed n = .center ↔ n.map Char.toLower = "center".toList) ∧
    (alignNamed n = .right ↔ n.map Char.toLower = "right".toList) := by
  unfold alignNamed foldName
  split
  · next hcenter => simp [hcenter]
  · next hcenter => split <;> simp_all

/-- An effect's name, without regard to case (R86). -/
theorem effectNamed_iff (n : List Char) : (effectNamed n = .blink ↔ n.map Char.toLower = "blink".toList) ∧
    (effectNamed n = .scrollLeft ↔ n.map Char.toLower = "scroll_left".toList) := by
  unfold effectNamed foldName
  split
  · next hblink => simp [hblink]
  · next hblink => split <;> simp_all

/-- A demo mode's name, without regard to case (R86). -/
theorem demoModeNamed_iff (n : List Char) : demoModeNamed n = .scrollFont ↔ n.map Char.toLower = "scroll_font".toList := by
  unfold demoModeNamed foldName
  split <;> simp_all

/-- A command is well formed if its payload fits the field `N` (R81). -/
theorem wf_of_payload_length {i : Instr} (hlen : i.payload.length < 4096) : i.wf = true :=
  decide_eq_true (Nat.le_of_lt_succ hlen)

/-- What a line assembles to fits the command port, whatever the mnemonic (R81; notes/assumptions/17.md). -/
theorem wf_of_assemble {mnemonic : String} {ops : List AsmOperand} {i : Instr} (hi : assemble mnemonic ops = some i) :
    i.wf = true := by
  apply wf_of_payload_length
  unfold assemble at hi
  -- what remains is one goal for each mnemonic, in the assembler's order
  repeat' split at hi
  all_goals cases hi
  · next hfit =>
    obtain ⟨hsl, hpl, -⟩ := hfit
    simp only [Instr.payload, List.length_map, List.length_append]
    omega
  · next hfit => obtain ⟨-, -, hl⟩ := hfit; exact hl
  · exact Nat.zero_lt_succ _
  · exact Nat.zero_lt_succ _
  · exact Nat.zero_lt_succ _
  · exact Nat.zero_lt_succ _
  · next hfit => obtain ⟨-, hl⟩ := hfit; exact hl

/-- Settles O4: each line is one branch of the assembler. -/
theorem assembledCommandsWellFormed : Obligations.AssembledCommandsWellFormed := by
  refine ⟨fun sl pl hsl hpl hpins => ?_, fun a b l ha hb hl => ?_, fun n => ⟨alignNamed n, rfl, alignNamed_iff n⟩,
    fun n c hc => ⟨effectNamed n, if_pos hc, effectNamed_iff n⟩, rfl,
    fun n c hc => ⟨demoModeNamed n, if_pos hc, demoModeNamed_iff n⟩, fun p l hp hl => ?_, rfl, rfl, fun _ _ _ => wf_of_assemble⟩
  · exact if_pos (And.intro hsl (And.intro hpl hpins))
  · exact if_pos (And.intro ha (And.intro hb hl))
  · exact if_pos (And.intro hp hl)

end Sys2Proof.Machine
end

section
/-! PROOFS. Responses: the one word that each command answers (R84, R85, R221, R222). -/

namespace Sys2Proof.Machine

/-- Settles O21: every reserved opcode raises BAD_CMD. -/
theorem reservedAnswersBadCmd : Obligations.ReservedAnswersBadCmd := by
  rintro s t rfl
  have hraise : raiseStatus .badCmd s = .next { s with responses := s.responses ++ [0x00004000] } := raiseStatus_eq .badCmd s
  exact ⟨hraise, hraise, hraise, hraise, hraise, hraise, hraise, hraise, hraise⟩

/-- The response of a command, its status in bits 15:12 and its count in bits 11:0 (R84). -/
theorem respond_responses_ofNat {s u : State} (st : Status) {count : Nat} (hcount : count < 4096)
    (hu : u.responses = s.responses) :
    (u.respond st count).responses = s.responses ++ [BitVec.ofNat 32 (st.code.toNat * 2 ^ 12 + count)] := by
  rw [respond_responses, responseWord_eq st count hcount, hu]; rfl

/-- A stored text has at most `TEXT_CAP` characters (R126). -/
theorem length_storedText (s : State) (txt : List Byte) : (storedText s txt).length = min txt.length s.cfg.textCap := by
  rw [storedText, List.length_take, Nat.min_comm]

/-- Settles O9: the branches of each command answer with the status and count of the spec. -/
theorem responseWords : Obligations.ResponseWords := by
  intro i s t hwf hexec
  cases i with
  | setup a b pl =>
    simp only [exec, execSetup] at hexec
    split at hexec
    · cases hexec; exact ⟨0, 0, respond_responses_ofNat .ok (by decide) rfl, by decide, .inl rfl, rfl⟩
    · cases hexec; exact ⟨2, 0, respond_responses_ofNat .badMap (by decide) rfl, by decide, .inr rfl, rfl⟩
  | setText a b txt =>
    simp only [exec, execSetText] at hexec
    split at hexec
    · cases hexec; exact ⟨0, 0, respond_responses_ofNat .ok (by decide) rfl, by decide, .inl rfl, rfl⟩
    · cases hexec; exact ⟨1, 0, respond_responses_ofNat .outOfRange (by decide) rfl, by decide, .inr rfl, rfl⟩
  | print p txt =>
    have hlen : txt.length < 4096 := Nat.lt_succ_of_le (of_decide_eq_true hwf)
    simp only [exec, execPrint] at hexec
    split at hexec
    · cases hexec; exact ⟨3, txt.length, respond_responses_ofNat .ignored hlen rfl, hlen, .inr (.inr ⟨rfl, rfl⟩)⟩
    · split at hexec
      · have hstored : (storedText s txt).length < 4096 := by rw [length_storedText]; omega
        cases hexec
        exact ⟨0, _, respond_responses_ofNat .ok hstored rfl, hstored, .inl ⟨rfl, length_storedText s txt⟩⟩
      · cases hexec; exact ⟨1, 0, respond_responses_ofNat .outOfRange (by decide) rfl, by decide, .inr (.inl ⟨rfl, rfl⟩)⟩
  | scrollLeft =>
    cases hexec
    exact ⟨0, 0, respond_responses_ofNat .ok (by decide) (by rw [scrollStep_frame]), by decide, rfl, rfl⟩
  | setTextAlign | setTextEffect | setDemoMode =>
    cases hexec; exact ⟨0, 0, respond_responses_ofNat .ok (by decide) rfl, by decide, rfl, rfl⟩
  | reserved0 | reserved8 | reserved9 | reservedA | reservedB | reservedC | reservedD | reservedE | reservedF =>
    cases hexec; exact ⟨4, 0, respond_responses_ofNat .badCmd (by decide) rfl, by decide, rfl, rfl⟩

end Sys2Proof.Machine
end

section
/-! PROOFS. The frames that REBUILD leaves (R168). -/

namespace Sys2Proof.Machine

/-- Settles O28: REBUILD completes, and the frames it leaves have their shape. -/
theorem rebuildFrameShape : Obligations.RebuildFrameShape := by
  intro s hmaps htext
  obtain ⟨t, ht⟩ := exists_rebuild hmaps htext
  have hsame := rebuild_sameConfiguration ht
  have hsum : s.nseg.toNat + s.ndig.toNat ≤ 20 := hmaps.2.2.1
  refine ⟨t, ht, fun p hp => ?_⟩
  have hentry : t.frame[p]? = some t.frame[p] := Vector.getElem?_eq_getElem (by omega)
  have hshape : FrameShape t p t.frame[p] := rebuild_framesShaped hmaps ht p _ (by rwa [hsame.ndig]) hentry
  exact ⟨_, hentry, hshape.of_maps hsame.segMap.symm hsame.posMap.symm hsame.nseg.symm hsame.ndig.symm⟩

end Sys2Proof.Machine
end

section
/-! PROOFS. Font lookup and segment encoder (R102, R104, R105, R107). -/

namespace Sys2Proof.Machine

/-- A read of the font image at a ROM address, as an optional read (R51). -/
theorem font_getElem?_eq_romRead (c : Params) (a : Fin 95) : c.font[(a : Nat)]? = some (c.romRead a) :=
  Vector.getElem?_eq_getElem a.isLt

/-- The full stop's glyph stands at ROM address 14 and nowhere else (R101 (d)). -/
theorem romRead_eq_dpGlyph (cfg : Config) (a : Fin 95) : cfg.romRead a = cfg.dpGlyph ↔ a = 14 := by
  obtain ⟨-, -, -, -, -, -, -, hother⟩ := cfg.ok
  constructor
  · intro heq
    by_contra ha
    exact hother a ha heq
  · rintro rfl
    rfl

/-- The blank glyph is what every unsupported code reads (R101 (b), R102). -/
theorem glyph_unsupported (s : State) {c : Byte} (h : ¬(0x20 ≤ c.toNat ∧ c.toNat ≤ 0x7E)) : glyph s c = 0 := by
  obtain ⟨-, -, -, -, -, hblank, -⟩ := s.cfg.ok
  rw [glyph, romAddr_unsupported h, hblank]

/-- IS_DP_ONLY is the comparison with `DP_GLYPH` (R105). -/
theorem isDpOnly_iff (s : State) (c : Byte) : isDpOnly s c = true ↔ glyph s c = s.cfg.dpGlyph := beq_iff_eq

/-- An entry of the segment map's 20-entry file is its pin register (R12). -/
theorem segMap_eq_some_iff (s : State) {i : Nat} (h : i < 20) (pin : Pin) : s.segMap[i]? = some pin ↔ segPin s i = pin := by
  simp [segPin, h]

/-- Settles O25: no other entry of a legal image equals entry 14, and no other code has address 14. -/
theorem dpOnlyIsTheFullStop : Obligations.DpOnlyIsTheFullStop := by
  intro s c
  have hentry : s.cfg.font[14]? = some s.cfg.dpGlyph := font_getElem?_eq_romRead s.cfg.toParams 14
  constructor
  · rw [isDpOnly_iff, hentry, Option.some.injEq, eq_comm]
  · calc isDpOnly s c = true
      _ ↔ s.cfg.romRead (romAddr c) = s.cfg.dpGlyph := isDpOnly_iff s c
      _ ↔ romAddr c = 14 := romRead_eq_dpGlyph s.cfg (romAddr c)
      _ ↔ c = 0x2E := romAddr_eq_dp

/-- Settles O26: the pins are those of the encoder's loop, whose indices all lie in the map's file; valid maps keep the select
pins apart from them. -/
theorem encodePinsBits : Obligations.EncodePinsBits := by
  intro s c j
  constructor
  · obtain ⟨⟨-, hgw⟩, -⟩ := s.cfg.ok
    rw [encodePins, getLsbD_litPins]
    refine and_congr_right fun _ => exists_congr fun i => ?_
    constructor
    · rintro ⟨hi, hlit, hpin⟩
      exact ⟨segPin s i, by omega, by omega, hlit, (segMap_eq_some_iff s (by omega) _).mpr rfl, hpin⟩
    · rintro ⟨pin, hseg, hi, hlit, hmap, hpin⟩
      obtain rfl := (segMap_eq_some_iff s (by omega) pin).mp hmap
      exact ⟨by omega, hlit, hpin⟩
  · rintro hmaps ⟨p, pin, hp, hpos, hpin⟩
    rw [Bool.eq_false_iff]
    intro hbit
    exact posPin_ne_segPin hmaps (isSegPin_of_encodePins hbit) hp hpos hpin

/-- Settles O24: a supported code reads its own ROM address, every other code address 0, which holds the blank glyph. -/
theorem glyphLookup : Obligations.GlyphLookup := by
  intro s c
  have hread : s.cfg.font[(romAddr c : Nat)]? = some (glyph s c) := font_getElem?_eq_romRead s.cfg.toParams (romAddr c)
  constructor
  · intro hlo hhi
    rwa [romAddr_supported ⟨hlo, hhi⟩] at hread
  · intro hout
    have hunsup : ¬(0x20 ≤ c.toNat ∧ c.toNat ≤ 0x7E) := by omega
    rw [romAddr_unsupported hunsup] at hread
    exact ⟨hread, glyph_unsupported s hunsup⟩

end Sys2Proof.Machine
end

section
/-! PROOFS. What each command does, branch by branch (R121 to R141). -/

namespace Sys2Proof.Machine

variable {s : State} {a b : Byte} {txt pl : List Byte}

/-- A valid SETUP writes the counts and both maps and answers OK (R122). -/
theorem exec_setup_of_valid (h : setupValid s a b pl = true) :
    exec (.setup a b pl) s = .next (State.respond { s with
      nseg := a.setWidth 5
      ndig := b.setWidth 5
      segMap := writeMap s.segMap 0 (pl.take a.toNat)
      posMap := writeMap s.posMap 0 (pl.drop a.toNat)
      configured := true
      contentChanged := true } .ok 0) := if_pos h

/-- Any other SETUP is rejected (R121). -/
theorem exec_setup_of_invalid (h : ¬setupValid s a b pl = true) : exec (.setup a b pl) s = raiseStatus .badMap s := if_neg h

/-- SET_TEXT places its text in a valid window and answers OK (R126). -/
theorem exec_setText_of_valid (h : windowValid s a.toNat b.toNat = true) :
    exec (.setText a b txt) s = .next ((placeText (a.setWidth 5) (b.setWidth 5) txt s).respond .ok 0) := if_pos h

/-- SET_TEXT in any other window is rejected (R125). -/
theorem exec_setText_of_invalid (h : ¬windowValid s a.toNat b.toNat = true) :
    exec (.setText a b txt) s = raiseStatus .outOfRange s := if_neg h

/-- PRINT is ignored while the demo runs, whatever its position (R141, R222). -/
theorem exec_print_of_demo (h : s.demoMode = .scrollFont) :
    exec (.print a txt) s = .next (s.respond .ignored txt.length) := if_pos h

/-- Outside the demo PRINT places its text from a valid position to the last digit and answers the characters stored (R141). -/
theorem exec_print_of_valid (hoff : s.demoMode = .off) (h : windowValid s a.toNat (s.ndig.toNat - 1) = true) :
    exec (.print a txt) s =
      .next ((placeText (a.setWidth 5) (s.ndig - 1) txt s).respond .ok (storedText s txt).length) := by
  simp only [exec, execPrint, hoff, reduceCtorEq, if_false, if_pos h]

/-- Outside the demo PRINT at any other position is rejected (R141). -/
theorem exec_print_of_invalid (hoff : s.demoMode = .off) (h : ¬windowValid s a.toNat (s.ndig.toNat - 1) = true) :
    exec (.print a txt) s = raiseStatus .outOfRange s := by
  simp only [exec, execPrint, hoff, reduceCtorEq, if_false, if_neg h]

/-- A demo mode that is not off is the font scroll (R24). -/
theorem eq_scrollFont_of_ne_off {m : DemoMode} (h : m ≠ .off) : m = .scrollFont := by
  cases m with
  | off => exact absurd rfl h
  | scrollFont => rfl

/-- Every command completes with one response; a status other than OK comes with nothing written, and one other than OK and
IGNORED with the count 0 (R120, R222). -/
theorem exec_answer (i : Instr) (s : State) : ∃ u st n, exec i s = .next (u.respond st n) ∧ CommandEffect s i u ∧
    (st = .ok ∨ u = s ∧ (st = .ignored ∨ n = 0)) := by
  cases i with
  | setup a b pl =>
    by_cases h : setupValid s a b pl = true
    · exact ⟨_, _, _, exec_setup_of_valid h, .setup h, .inl rfl⟩
    · exact ⟨_, _, _, exec_setup_of_invalid h, .rejected _, .inr ⟨rfl, .inr rfl⟩⟩
  | setText a b txt =>
    by_cases h : windowValid s a.toNat b.toNat = true
    · exact ⟨_, _, _, exec_setText_of_valid h, .place _ txt (windowValid_setWidth h), .inl rfl⟩
    · exact ⟨_, _, _, exec_setText_of_invalid h, .rejected _, .inr ⟨rfl, .inr rfl⟩⟩
  | print p txt =>
    cases hdemo : s.demoMode with
    | scrollFont => exact ⟨_, _, _, exec_print_of_demo hdemo, .rejected _, .inr ⟨rfl, .inl rfl⟩⟩
    | off =>
      by_cases h : windowValid s p.toNat (s.ndig.toNat - 1) = true
      · exact ⟨_, _, _, exec_print_of_valid hdemo h, .place _ txt (windowValid_lastDigit h), .inl rfl⟩
      · exact ⟨_, _, _, exec_print_of_invalid hdemo h, .rejected _, .inr ⟨rfl, .inr rfl⟩⟩
  | setTextAlign al => exact ⟨_, _, _, rfl, .align al, .inl rfl⟩
  | setTextEffect e c => exact ⟨_, _, _, rfl, .effect e c, .inl rfl⟩
  | scrollLeft => exact ⟨_, _, _, rfl, .scroll, .inl rfl⟩
  | setDemoMode m c => exact ⟨_, _, _, rfl, .demo m c, .inl rfl⟩
  | reserved0 | reserved8 | reserved9 | reservedA | reservedB | reservedC | reservedD | reservedE | reservedF =>
    exact ⟨_, _, _, rfl, .rejected _, .inr ⟨rfl, .inr rfl⟩⟩

end Sys2Proof.Machine
end

section
/-! PROOFS. Every command answers once and leaves the refresh FSM, the frames and the pins alone (R120). -/

namespace Sys2Proof.Machine

/-- Commands write the configuration, DisplayText, the demo, the effect's timer and counts, and the dirty flag only (R120). -/
theorem CommandEffect.writes {i : Instr} {s u : State} (h : CommandEffect s i u) :
    u = { s with
      configured := u.configured
      nseg := u.nseg
      ndig := u.ndig
      segMap := u.segMap
      posMap := u.posMap
      text := u.text
      textLen := u.textLen
      startPos := u.startPos
      maxPos := u.maxPos
      align := u.align
      effect := u.effect
      cycleNum := u.cycleNum
      visibleIdx := u.visibleIdx
      visibleLen := u.visibleLen
      contentChanged := u.contentChanged
      demoMode := u.demoMode
      demoCycleNum := u.demoCycleNum
      demoIdx := u.demoIdx
      demoCyclesLeft := u.demoCyclesLeft
      blinkOn := u.blinkOn
      effTimer := u.effTimer
      cyclesLeft := u.cyclesLeft } := by
  cases h with
  | scroll => rw [scrollStep_frame]
  | _ => rfl

/-- Bits 15:12 of a response word are its status (R84). -/
theorem responseWord_status (st : Status) (n : Nat) : (responseWord st n).extractLsb' 12 4 = st.code := by
  apply BitVec.eq_of_getLsbD_eq
  intro i hi
  simp only [responseWord, BitVec.getLsbD_extractLsb', BitVec.getLsbD_append]
  interval_cases i <;> simp

/-- Bits 11:0 of a response word are its count (R84). -/
theorem responseWord_count (st : Status) (n : Nat) : (responseWord st n).extractLsb' 0 12 = BitVec.ofNat 12 n := by
  apply BitVec.eq_of_getLsbD_eq
  intro i hi
  simp only [responseWord, BitVec.getLsbD_extractLsb', BitVec.getLsbD_append]
  interval_cases i <;> simp

/-- Settles O8: the one answer of `exec_answer`, over registers that no command's effect writes. -/
theorem commandsAnswerOnce : Obligations.CommandsAnswerOnce := by
  intro i s
  obtain ⟨u, st, n, hexec, heff, hstatus⟩ := exec_answer i s
  have hwrites := heff.writes
  refine ⟨u.respond st n, responseWord st n, hexec, ?_, ?_, ?_, ?_, ?_, ?_, ?_⟩
  · rw [hwrites]; rfl
  · rw [hwrites]; exact ⟨rfl, rfl, rfl, rfl, rfl⟩
  · rw [hwrites]; exact ⟨rfl, rfl, rfl, rfl, rfl⟩
  · rw [hwrites]; exact ⟨rfl, rfl, rfl, rfl⟩
  · rw [hwrites]; exact ⟨rfl, rfl, rfl⟩
  · rw [responseWord_status]
    intro hnot
    obtain rfl | ⟨rfl, -⟩ := hstatus
    · exact absurd rfl hnot
    · rfl
  · rw [responseWord_status, responseWord_count]
    intro hnot hraised
    obtain rfl | ⟨-, rfl | rfl⟩ := hstatus
    · exact absurd rfl hnot
    · exact absurd rfl hraised
    · rfl

end Sys2Proof.Machine
end

section
/-! PROOFS. SETUP (R121, R122). -/

namespace Sys2Proof.Machine

/-- A map's entry after pins are written from entry 0: the byte's bits 4:0 (R122). -/
theorem writeMap_getElem?_of_some (v : Vector Pin 20) {l : List Byte} (hl : l.length ≤ 20) {i : Nat} {x : Byte}
    (hx : l[i]? = some x) : (writeMap v 0 l)[i]? = some (x.extractLsb' 0 5) := by
  have hi : i < l.length := (List.getElem?_eq_some_iff.mp hx).1
  rw [writeMap_getElem? l v 0 i (by omega), if_pos (by omega), Nat.sub_zero, hx, Option.map_some,
    BitVec.setWidth_eq_extractLsb' (by decide)]

/-- Pins written from entry 0 leave the entries past the last of them alone, and the file has 20 entries before and after. -/
theorem writeMap_getElem?_of_length_le (v : Vector Pin 20) {l : List Byte} {i : Nat} (hi : l.length ≤ i) :
    (writeMap v 0 l)[i]? = v[i]? := by
  by_cases h20 : i < 20
  · rw [writeMap_getElem? l v 0 i h20, if_neg (by omega)]
  · rw [Vector.getElem?_eq_none (by omega), Vector.getElem?_eq_none (by omega)]

/-- Settles O10: the maps hold the payload's first and second part, as `writeMap` stores them. -/
theorem setupAccepted : Obligations.SetupAccepted := by
  intro a b pl s hallowed
  have hvalid := setupAllowed_iff.mp hallowed
  obtain ⟨-, hlen, -, hsum, -, -⟩ := setupValid_iff.mp hvalid
  have hseg : (pl.take a.toNat).length = a.toNat := List.length_take_of_le (by omega)
  have hpos : (pl.drop a.toNat).length = b.toNat := by rw [List.length_drop]; omega
  refine ⟨_, exec_setup_of_valid hvalid, ?_, ?_, fun i x hi hx => ?_, fun i hi => ?_, fun p x hp hx => ?_, fun p hp => ?_,
    setup_mapsValid hvalid, rfl⟩
  · exact Nat.mod_eq_of_lt (by omega)
  · exact Nat.mod_eq_of_lt (by omega)
  · exact writeMap_getElem?_of_some _ (by omega) ((List.getElem?_take_of_lt hi).trans hx)
  · exact writeMap_getElem?_of_length_le _ (by omega)
  · exact writeMap_getElem?_of_some _ (by omega) (List.getElem?_drop.trans hx)
  · exact writeMap_getElem?_of_length_le _ (by omega)

/-- Settles O11: the check of R121 fails, and the command raises BAD_MAP. -/
theorem setupRejected : Obligations.SetupRejected := by
  intro a b pl s hnot
  rw [setupAllowed_iff] at hnot
  rw [exec_setup_of_invalid hnot, raiseStatus_eq]
  rfl

end Sys2Proof.Machine
end

section
/-! PROOFS. SET_TEXT and PRINT (R125, R126, R141). -/

namespace Sys2Proof.Machine

variable {s : State} {a b : Byte} {txt : List Byte} {n : Nat}

/-- A character that is stored can be read back at its place in the text (R52, R126). -/
theorem textRead_placeText (first last : BitVec 5) (hn : n = min txt.length s.cfg.textCap) (k : Nat) (c : Byte) (hk : k < n)
    (hc : txt[k]? = some c) : textRead (placeText first last txt s) k = .ok c := by
  have hlen : k < (storedText s txt).length := by rw [length_storedText]; omega
  refine textRead_eq_ok.mpr ⟨hlen, ?_⟩
  show cellRead (writeBytes s.text 0 (storedText s txt)) k = some c
  rw [cellRead_writeBytes, if_pos (by omega), Nat.sub_zero, storedText, List.getElem?_take_of_lt (by omega), hc]

/-- Past the stored text the buffer is as before (R126). -/
theorem cellRead_placeText_of_le (first last : BitVec 5) (hn : n = min txt.length s.cfg.textCap) (k : Nat) (hk : n ≤ k) :
    cellRead (placeText first last txt s).text k = cellRead s.text k := by
  rw [← length_storedText] at hn
  show cellRead (writeBytes s.text 0 (storedText s txt)) k = cellRead s.text k
  rw [cellRead_writeBytes, if_neg (by omega)]

/-- The registers that placing `n` characters in the window `lo..hi` writes, the text buffer left as it comes out (R126). -/
theorem placeText_eq {first last : BitVec 5} {lo hi : Nat} (hlo : first.toNat = lo) (hhi : last.toNat = hi)
    (hn : n = min txt.length s.cfg.textCap) :
    placeText first last txt s = { s with
      text := (placeText first last txt s).text
      textLen := n
      startPos := first
      maxPos := last
      visibleIdx := 0
      visibleLen := min n (hi - lo + 1)
      contentChanged := true } := by
  rw [← length_storedText] at hn
  subst hlo hhi hn
  rfl

/-- An operand below `NDIG` is stored in full in a 5-bit register (R77). -/
theorem toNat_setWidth_of_lt_ndig (s : State) (h : a.toNat < s.ndig.toNat) : (a.setWidth 5).toNat = a.toNat :=
  Nat.mod_eq_of_lt (by omega)

/-- Settles O12: the text is placed in the window that the operands name. -/
theorem setTextAccepted : Obligations.SetTextAccepted := by
  intro a b txt s n hallowed hn
  have hvalid := windowAllowed_iff.mp hallowed
  obtain ⟨-, hle, hlt, -⟩ := windowValid_iff.mp hvalid
  have ha : (a.setWidth 5).toNat = a.toNat := toNat_setWidth_of_lt_ndig s (by omega)
  have hb : (b.setWidth 5).toNat = b.toNat := toNat_setWidth_of_lt_ndig s hlt
  refine ⟨_, exec_setText_of_valid hvalid, textRead_placeText (a.setWidth 5) (b.setWidth 5) hn,
    cellRead_placeText_of_le (a.setWidth 5) (b.setWidth 5) hn, Memory.wf_writeBytes _ _ _, ha, hb, ?_⟩
  exact congrArg (·.respond .ok 0) (placeText_eq ha hb hn)

/-- Settles O13: the check of R125 fails, and the command raises OUT_OF_RANGE. -/
theorem setTextRejected : Obligations.SetTextRejected := by
  intro a b txt s hnot
  rw [windowAllowed_iff] at hnot
  rw [exec_setText_of_invalid hnot, raiseStatus_eq]
  rfl

/-- Settles O20, branch by branch: ignored in the demo, rejected, or placed from the position to the last digit. -/
theorem printResult : Obligations.PrintResult := by
  intro a txt s n hlen hn
  refine ⟨fun hdemo => ?_, fun hoff hnot => ?_, fun hoff hallowed => ?_⟩
  · have hword : responseWord .ignored txt.length = 0x00003000 + BitVec.ofNat 32 txt.length := by
      rw [responseWord_eq _ _ (by omega), BitVec.ofNat_add]
      rfl
    rw [exec_print_of_demo (eq_scrollFont_of_ne_off hdemo), State.respond, hword]
  · rw [windowAllowed_iff] at hnot
    rw [exec_print_of_invalid hoff hnot, raiseStatus_eq]
    rfl
  · have hvalid := windowAllowed_iff.mp hallowed
    obtain ⟨-, hle, hlt, -⟩ := windowValid_iff.mp hvalid
    have ha : (a.setWidth 5).toNat = a.toNat := toNat_setWidth_of_lt_ndig s (by omega)
    have hlast : (s.ndig - 1).toNat = s.ndig.toNat - 1 := by bv_omega
    have hword : responseWord .ok (storedText s txt).length = BitVec.ofNat 32 n := by
      rw [length_storedText, ← hn, responseWord_eq _ _ (by omega)]
      simp [Status.code]
    refine ⟨_, exec_print_of_valid hoff hvalid, textRead_placeText (a.setWidth 5) (s.ndig - 1) hn,
      cellRead_placeText_of_le (a.setWidth 5) (s.ndig - 1) hn, Memory.wf_writeBytes _ _ _, ha, hlast, ?_⟩
    rw [placeText_eq ha hlast hn, State.respond, hword]

end Sys2Proof.Machine
end

section
/-! PROOFS. SET_TEXT_ALIGN, SET_TEXT_EFFECT, SCROLL_LEFT and SET_DEMO_MODE (R131 to R139). -/

namespace Sys2Proof.Machine

/-- The alignments' cursors in the integers, from the excess `d` of the text over its window (R131). -/
theorem alignedIdx_excess {s : State} {d : Int} (hwindow : s.startPos.toNat ≤ s.maxPos.toNat)
    (hd : d = (s.textLen : Int) - ((s.maxPos.toNat : Int) - s.startPos.toNat + 1)) :
    (alignedIdx s .right : Int) = max 0 d ∧ (alignedIdx s .center : Int) = max 0 (d.fdiv 2) := by
  have hwidth : (windowWidth s : Int) = (s.maxPos.toNat : Int) - s.startPos.toNat + 1 := by unfold windowWidth; omega
  simp only [alignedIdx, hwidth, ← hd, Int.fdiv_eq_ediv_of_nonneg d (by decide : (0 : Int) ≤ 2)]
  omega

/-- Settles O14: `alignedIdx` is the cursor of R131, and under scroll_left the cursor stands. -/
theorem setTextAlignResult : Obligations.SetTextAlignResult := by
  intro al s d hwindow hd
  obtain ⟨hright, hcenter⟩ := alignedIdx_excess hwindow hd
  refine ⟨_, rfl, rfl, fun hscroll => if_pos hscroll, fun hother => ?_⟩
  simp only [respond_visibleIdx, if_neg hother]
  refine ⟨?_, ?_, ?_⟩
  · rintro rfl; rfl
  · rintro rfl; exact hright
  · rintro rfl; exact hcenter

/-- SET_TEXT_ALIGN left, but under scroll_left: the cursor goes to the text's start (R131). -/
theorem exec_alignLeft {s : State} (h : s.effect ≠ .scrollLeft) : exec (.setTextAlign .left) s =
    .next (State.respond { s with align := .left, visibleIdx := 0, contentChanged := true } .ok 0) := by
  simp only [exec, execSetTextAlign, if_neg h, alignedIdx]

/-- Settles O15: the second left writes what the first one wrote, since right writes the same registers and no other. -/
theorem alignRoundTrip : Obligations.AlignRoundTrip := by
  intro s hother
  exact ⟨_, _, _, exec_alignLeft hother, rfl, exec_alignLeft hother, rfl, rfl⟩

/-- Settles O16: the registers written are those of R134. -/
theorem setTextEffectResult : Obligations.SetTextEffectResult := by
  intro e c s
  exact ⟨_, rfl, fun hscroll => if_pos hscroll, fun hother => if_neg hother, rfl⟩

/-- Settles O18: SCROLL_STEP leaves the responses and the timer alone, and what it does else is one of `scrollStep_cases`. -/
theorem scrollLeftResult : Obligations.ScrollLeftResult := by
  intro s
  have hresponses : (scrollStep s).responses = s.responses := by rw [scrollStep_frame]
  refine ⟨(scrollStep s).respond .ok 0, rfl, by rw [← hresponses]; rfl, fun hother => ?_, fun hscroll => ?_, ?_⟩
  · obtain ⟨-, heq⟩ | ⟨hscroll, -⟩ | ⟨hscroll, -⟩ := scrollStep_cases s
    · rw [heq]; rfl
    · exact absurd hscroll hother
    · exact absurd hscroll hother
  · obtain ⟨hother, -⟩ | ⟨-, -, heq⟩ | ⟨-, -, heq⟩ := scrollStep_cases s
    · exact absurd hscroll hother
    · rw [heq]; rfl
    · rw [heq, countCycle_frame]; rfl
  · rw [scrollStep_frame]; rfl

/-- Settles O19: the registers written are those of R139. -/
theorem setDemoModeResult : Obligations.SetDemoModeResult := fun _ _ _ => rfl

end Sys2Proof.Machine
end

section
/-! PROOFS. REBUILD's walk over the positions, the off half of a blink, and the REBUILD micro-step (R160 to R168, R185). -/

namespace Sys2Proof.Machine

/-- The cursor at position `p` of the walk (R160): it starts with the plan's first character, and each position moves it as
`buildFrame` says. -/
def walkCursor (s : State) (w : WalkPlan) : Nat → Nat
  | 0 => w.start
  | p + 1 =>
    match buildFrame s w p (walkCursor s w p) with
    | .ok (_, k') => k'
    | .error _ => walkCursor s w p

/-- What R160 to R164 give position `p`, wired to `pin`, with the cursor at `k`: the cursor `k'` after it and its entry in the frame
buffer, for characters read from `src`. -/
def PositionGiven (s : State) (w : WalkPlan) (src : Nat → Byte) (p : Nat) (pin : Pin) (k k' : Nat) (entry : Option Frame) : Prop :=
  if w.lo ≤ p ∧ p ≤ w.hi ∧ k < w.stop then
    if isDpOnly s (src k) = false ∧ k + 1 < w.stop ∧ isDpOnly s (src (k + 1)) = true then
      k' = k + 2 ∧
        entry = some (1#24 <<< pin.toNat |||
          if w.shown then (encodePins s (src k) ||| encodePins s (src (k + 1))).setWidth 24 else 0)
    else k' = k + 1 ∧ entry = some (1#24 <<< pin.toNat ||| if w.shown then (encodePins s (src k)).setWidth 24 else 0)
  else k' = k ∧ entry = some (1#24 <<< pin.toNat)

section
variable {s t : State} {w : WalkPlan} {src : Nat → Byte} {n p k k' : Nat} {f : Frame} {pin : Pin}

/-- The cursor moves as the frame built at it says (R160). -/
theorem walkCursor_succ (h : buildFrame s w p (walkCursor s w p) = .ok (f, k')) : walkCursor s w (p + 1) = k' := by
  simp only [walkCursor, h]

/-- The walk from position `p` writes each position with the frame built at the walk's own cursor there (R160). -/
theorem buildFrames_read_walkCursor {file file' : FrameFile} (h : buildFrames s w n p (walkCursor s w p) file = .ok file')
    {q : Nat} (hpq : p ≤ q) (hq : q < p + n) :
    ∃ fr, buildFrame s w q (walkCursor s w q) = .ok (fr, walkCursor s w (q + 1)) ∧ file'[q]? = some fr := by
  induction n generalizing p file with
  | zero => omega
  | succ n ih =>
    obtain ⟨fr, k', hfr, hrest⟩ := buildFrames_succ_eq_ok.mp h
    have hcur := walkCursor_succ hfr
    rw [← hcur] at hfr hrest
    obtain rfl | hlt := Nat.eq_or_lt_of_le hpq
    · have hread := buildFrames_read _ _ _ _ _ hrest p
      obtain ⟨pin, hpin, -⟩ := buildFrame_cases hfr
      rw [if_neg (by omega), FrameFile.getElem?_write _ p p fr (posPin_entry hpin).1, if_pos rfl] at hread
      exact ⟨fr, hfr, hread⟩
    · exact ih hrest hlt (by omega)

/-- A position moves the cursor forward and never past the end of the visible substring (R161, R162). -/
theorem buildFrame_cursor_mono (h : buildFrame s w p k = .ok (f, k')) (hk : k ≤ w.stop) : k ≤ k' ∧ k' ≤ w.stop := by
  obtain ⟨-, -, ⟨-, -, rfl⟩ | ⟨⟨-, -, hlt⟩, m, htake, -⟩⟩ := buildFrame_cases h
  · exact ⟨le_rfl, hk⟩
  · obtain ⟨-, -, ⟨rfl, -⟩ | ⟨rfl, -, hnext, -⟩⟩ := takeCharacter_cases htake <;> omega

/-- The cursor stays between the first character and the end of the visible substring (R160). -/
theorem walkCursor_mem (h : w.start ≤ w.stop) (p : Nat) : w.start ≤ walkCursor s w p ∧ walkCursor s w p ≤ w.stop := by
  induction p with
  | zero => exact ⟨le_rfl, h⟩
  | succ p ih =>
    obtain ⟨hstart, hstop⟩ := ih
    cases hb : buildFrame s w p (walkCursor s w p) with
    | error e => simp only [walkCursor, hb]; exact ⟨hstart, hstop⟩
    | ok r =>
      obtain ⟨hle, hle'⟩ := buildFrame_cursor_mono hb hstop
      rw [walkCursor_succ hb]
      exact ⟨hstart.trans hle, hle'⟩

/-- The characters taken at a cursor inside the substring (R161, R162): two exactly where a plain glyph is followed, inside the
substring, by a decimal point. -/
theorem takeCharacter_of_source {stop : Nat} {m : PinMask} (hsrc : ∀ j, k ≤ j → j < stop → sourceRead s j = .ok (src j))
    (hk : k < stop) (h : takeCharacter s k stop = .ok (m, k')) :
    if isDpOnly s (src k) = false ∧ k + 1 < stop ∧ isDpOnly s (src (k + 1)) = true then
      k' = k + 2 ∧ m = encodePins s (src k) ||| encodePins s (src (k + 1))
    else k' = k + 1 ∧ m = encodePins s (src k) := by
  obtain ⟨c, hc, hcases⟩ := takeCharacter_cases h
  obtain rfl : src k = c := Except.ok.inj ((hsrc k le_rfl hk).symm.trans hc)
  have hnext : ∀ d, k + 1 < stop → sourceRead s (k + 1) = .ok d → src (k + 1) = d := fun d hlt hd =>
    Except.ok.inj ((hsrc (k + 1) (Nat.le_succ k) hlt).symm.trans hd)
  obtain ⟨rfl, rfl, halone⟩ | ⟨rfl, hplain, hlt, d, hd, hdp, rfl⟩ := hcases
  · rw [if_neg]
    · exact ⟨rfl, rfl⟩
    · rintro ⟨hplain, hlt, hdp⟩
      obtain hdot | hend | ⟨d, hd, hnot⟩ := halone
      · exact absurd (hplain.symm.trans hdot) (by decide)
      · omega
      · rw [hnext d hlt hd, hnot] at hdp
        exact absurd hdp (by decide)
  · obtain rfl := hnext d hlt hd
    rw [if_pos ⟨hplain, hlt, hdp⟩]
    exact ⟨rfl, rfl⟩

/-- A frame whose segments may be suppressed, as the select bit with a mask (R164). -/
theorem ite_or_eq_or_ite (b : Bool) (sel segs : Frame) : (if b then sel ||| segs else sel) = sel ||| if b then segs else 0 := by
  cases b <;> simp

/-- The plan in demo mode: the font sequence over the whole display, lit (R165). -/
theorem walkPlan_of_demo (h : s.demoMode = .scrollFont) : walkPlan s =
    { lo := 0, hi := s.ndig.toNat - 1, start := s.demoIdx.toNat,
      stop := s.demoIdx.toNat + min (95 - s.demoIdx.toNat) s.ndig.toNat, shown := true } := by
  simp only [walkPlan, h]

/-- The plan in text mode: the visible substring over the window, lit but in the off half of a blink (R161, R164). -/
theorem walkPlan_of_text (h : s.demoMode = .off) : walkPlan s =
    { lo := s.startPos.toNat, hi := s.maxPos.toNat, start := s.visibleIdx, stop := s.visibleIdx + s.visibleLen,
      shown := segmentsShown s } := by
  simp only [walkPlan, h]

/-- The visible substring ends no earlier than it starts (R160). -/
theorem walkPlan_start_le_stop (s : State) : (walkPlan s).start ≤ (walkPlan s).stop := by
  cases h : s.demoMode with
  | scrollFont => rw [walkPlan_of_demo h]; exact Nat.le_add_right _ _
  | off => rw [walkPlan_of_text h]; exact Nat.le_add_right _ _

/-- The source is the font sequence in demo mode and the text otherwise (R52, R53, R165). -/
theorem sourceRead_of_demo (h : s.demoMode = .scrollFont) (k : Nat) : sourceRead s k = .ok (BitVec.ofNat 8 (0x20 + k)) := by
  simp only [sourceRead, h]

theorem sourceRead_of_text (h : s.demoMode = .off) (k : Nat) : sourceRead s k = textRead s k := by
  simp only [sourceRead, h]

/-- What `buildFrame` answers at a position is what R160 to R164 give it. -/
theorem positionGiven_of_buildFrame (hsrc : ∀ j, k ≤ j → j < w.stop → sourceRead s j = .ok (src j)) (hpin : posPin s p = .ok pin)
    (h : buildFrame s w p k = .ok (f, k')) : PositionGiven s w src p pin k k' (some f) := by
  obtain ⟨pin', hpin', hcases⟩ := buildFrame_cases h
  obtain rfl : pin = pin' := Except.ok.inj (hpin.symm.trans hpin')
  unfold PositionGiven
  obtain ⟨hblank, rfl, rfl⟩ | ⟨htaking, m, htake, rfl⟩ := hcases
  · rw [if_neg hblank]
    exact ⟨rfl, rfl⟩
  · obtain ⟨-, -, hlt⟩ := id htaking
    have htaken := takeCharacter_of_source hsrc hlt htake
    rw [if_pos htaking, ite_or_eq_or_ite]
    split_ifs at htaken ⊢ <;> obtain ⟨rfl, rfl⟩ := htaken <;> exact ⟨rfl, rfl⟩

/-- REBUILD completes where the digits fit the map and the source can be read over the whole substring (R13, R160). -/
theorem exists_rebuild_of_source (hdigits : s.ndig.toNat ≤ 20)
    (hsrc : ∀ j, (walkPlan s).start ≤ j → j < (walkPlan s).stop → ∃ c, sourceRead s j = .ok c) : ∃ t, rebuild s = .ok t := by
  obtain ⟨file, hfile⟩ := buildFrames_ok s.ndig.toNat 0 (walkPlan s).start s.frame
    (fun q _ hq => ⟨s.posMap[q], posPin_of_lt (by omega)⟩) hsrc
  exact ⟨_, rebuild_eq_ok.mpr ⟨file, hfile, rfl⟩⟩

/-- A digit position's entry after REBUILD is the frame built at the walk's cursor there (R160). -/
theorem rebuild_read_walkCursor (hrebuild : rebuild s = .ok t) (hp : p < s.ndig.toNat) :
    ∃ fr, buildFrame s (walkPlan s) p (walkCursor s (walkPlan s) p) = .ok (fr, walkCursor s (walkPlan s) (p + 1)) ∧
      t.frame[p]? = some fr := by
  obtain ⟨file, hfile, rfl⟩ := rebuild_eq_ok.mp hrebuild
  exact buildFrames_read_walkCursor hfile (Nat.zero_le p) (by omega)

/-- Each digit position's frame after REBUILD, and the cursor's move there (R160 to R164). -/
theorem rebuild_positionGiven (hrebuild : rebuild s = .ok t)
    (hsrc : ∀ j, (walkPlan s).start ≤ j → j < (walkPlan s).stop → sourceRead s j = .ok (src j)) (hp : p < s.ndig.toNat)
    (hpin : posPin s p = .ok pin) :
    PositionGiven s (walkPlan s) src p pin (walkCursor s (walkPlan s) p) (walkCursor s (walkPlan s) (p + 1)) t.frame[p]? := by
  obtain ⟨fr, hfr, hread⟩ := rebuild_read_walkCursor hrebuild hp
  have hstart := (walkCursor_mem (s := s) (walkPlan_start_le_stop s) p).1
  rw [hread]
  exact positionGiven_of_buildFrame (fun j hj => hsrc j (hstart.trans hj)) hpin hfr

/-- REBUILD leaves the entries past the last digit alone (R160). -/
theorem rebuild_frame_of_le (hrebuild : rebuild s = .ok t) (hp : s.ndig.toNat ≤ p) : t.frame[p]? = s.frame[p]? := by
  obtain ⟨file, hfile, rfl⟩ := rebuild_eq_ok.mp hrebuild
  have hread := buildFrames_read _ _ _ _ _ hfile p
  rwa [if_neg (by omega)] at hread

/-- The segments are suppressed exactly in the off half of a blink (R164). -/
theorem segmentsShown_eq_false : segmentsShown s = false ↔ s.effect = .blink ∧ s.blinkOn = false := by
  simp [segmentsShown]

/-- With the segments suppressed a position's frame is its select bit (R164). -/
theorem buildFrame_of_not_shown (hshown : w.shown = false) (hpin : posPin s p = .ok pin)
    (h : buildFrame s w p k = .ok (f, k')) : f = 1#24 <<< pin.toNat := by
  obtain ⟨pin', hpin', ⟨-, rfl, -⟩ | ⟨-, m, -, rfl⟩⟩ := buildFrame_cases h
  · rw [Except.ok.inj (hpin.symm.trans hpin')]
  · rw [Except.ok.inj (hpin.symm.trans hpin'), hshown]
    rfl

end

/-- Settles O27: the plan is the one that the premises name, and its cursor is `walkCursor`. -/
theorem rebuildWalk : Obligations.RebuildWalk := by
  intro s lo hi start stop shown src hdigits hsource
  have hwalk : walkPlan s = ⟨lo, hi, start, stop, shown⟩ ∧ ∀ j, start ≤ j → j < stop → sourceRead s j = .ok (src j) := by
    obtain ⟨hdemo, rfl, rfl, rfl, rfl, rfl, hsrc⟩ | ⟨hoff, rfl, rfl, rfl, rfl, hshown, hsrc⟩ := hsource
    · exact ⟨walkPlan_of_demo hdemo, fun j _ _ => by rw [sourceRead_of_demo hdemo, hsrc]⟩
    · obtain rfl : segmentsShown s = shown := by
        rw [Bool.eq_iff_iff, ← not_iff_not, Bool.not_eq_true, Bool.not_eq_true, segmentsShown_eq_false, hshown]
      exact ⟨walkPlan_of_text hoff, fun j hj hlt => by rw [sourceRead_of_text hoff, hsrc j hj hlt]⟩
  obtain ⟨hplan, hsrc⟩ := hwalk
  have hread : ∀ j, (walkPlan s).start ≤ j → j < (walkPlan s).stop → sourceRead s j = .ok (src j) := by rwa [hplan]
  obtain ⟨t, ht⟩ := exists_rebuild_of_source hdigits fun j hj hlt => ⟨src j, hread j hj hlt⟩
  refine ⟨t, walkCursor s (walkPlan s), ht, ?_, fun p => rebuild_frame_of_le ht, ?_, fun p _ => ?_, fun p pin hp hpin => ?_⟩
  · obtain ⟨file, -, rfl⟩ := rebuild_eq_ok.mp ht
    rfl
  · rw [hplan]; rfl
  · have hstop := (walkCursor_mem (s := s) (walkPlan_start_le_stop s) p).2
    rwa [congrArg WalkPlan.stop hplan] at hstop
  · have hgiven := rebuild_positionGiven ht hread hp (posPin_eq_ok.mpr hpin)
    rw [hplan] at hgiven ⊢
    exact hgiven

/-- Settles O29: in the off half of a blink the plan suppresses the segments. -/
theorem rebuildBlinkOff : Obligations.RebuildBlinkOff := by
  intro s hdigits htext hoff heffect hblink
  obtain ⟨t, ht⟩ := exists_rebuild_of_source hdigits fun _ _ => sourceRead_of_lt_stop htext
  refine ⟨t, ht, fun p pin hp hpin => ?_⟩
  obtain ⟨fr, hfr, hread⟩ := rebuild_read_walkCursor ht hp
  have hshown : (walkPlan s).shown = false := by
    rw [walkPlan_of_text hoff]
    exact segmentsShown_eq_false.mpr ⟨heffect, hblink⟩
  exact hread.trans (congrArg some (buildFrame_of_not_shown hshown (posPin_eq_ok.mpr hpin) hfr))

/-- Settles O30: a walk writes the same frames again over those it left. -/
theorem rebuildIdempotent : Obligations.RebuildIdempotent := fun _ _ => rebuild_rebuild

/-- Settles O40: the two branches of the micro-step, past the event that named it, which REBUILD does not read. -/
theorem rebuildMicroStep : Obligations.RebuildMicroStep := by
  intro s hnext hfsm
  rw [step_of_microNext hnext, microStep_rebuild (s := { s with events := s.events.tail }) hfsm]
  refine ⟨fun hclean => ?_, fun u hchanged hrebuild => ?_⟩
  · exact microRebuild_eq_next.mpr (.inl ⟨hclean, rfl⟩)
  · exact microRebuild_eq_next.mpr (.inr ⟨hchanged, _, rebuild_setEvents hrebuild _, rfl⟩)

end Sys2Proof.Machine
end

section
/-! PROOFS. The scheduler's micro-steps but REBUILD, and the arrival of a tick (R181 to R188). -/

namespace Sys2Proof.Machine

/-- Settles O37: the step takes the waiting tick. -/
theorem tickArrivalStep : Obligations.TickArrivalStep := fun _ _ hev => step_of_event hev

theorem microStep_idle {s : State} (h : s.fsm = .idle) : microStep s = microIdle s := by unfold microStep; rw [h]

/-- Settles O38: whether the tick is pending decides, and past that whether the block is configured. -/
theorem idleMicroStep : Obligations.IdleMicroStep := by
  intro s hnext hfsm
  have hstep : step s = .next (if s.tickPending then enterPass s.pastEvent else s.pastEvent) :=
    (step_of_microNext hnext).trans (microStep_idle hfsm)
  refine ⟨fun htick hconf => ?_, fun htick hconf => ?_, fun htick => ?_⟩
  · rw [hstep, if_pos htick, enterPass, if_pos hconf]
  · rw [hstep, if_pos htick, enterPass, if_neg (by simp [hconf])]
  · rw [hstep, if_neg (by simp [htick])]

/-- Counting a cycle does not read the event that waits (R203). -/
theorem countCycle_pastEvent (s : State) : countCycle s.pastEvent = (countCycle s).pastEvent := by
  unfold countCycle
  rw [apply_ite State.pastEvent]

/-- Counting a demo cycle does not read the event that waits (R207). -/
theorem countDemoCycle_pastEvent (s : State) : countDemoCycle s.pastEvent = (countDemoCycle s).pastEvent := by
  unfold countDemoCycle
  rw [apply_ite State.pastEvent]

/-- BLINK_TOGGLE does not read the event that waits (R203). -/
theorem blinkToggle_pastEvent (s : State) : blinkToggle s.pastEvent = (blinkToggle s).pastEvent := by
  unfold blinkToggle
  rw [apply_ite State.pastEvent]
  exact if_congr Iff.rfl rfl (congrArg State.markChanged (countCycle_pastEvent { s with blinkOn := true }))

/-- SCROLL_STEP does not read the event that waits (R205). -/
theorem scrollStep_pastEvent (s : State) : scrollStep s.pastEvent = (scrollStep s).pastEvent := by
  unfold scrollStep
  rw [apply_ite State.pastEvent, apply_ite State.pastEvent]
  exact if_congr Iff.rfl (if_congr Iff.rfl (countCycle_pastEvent ({ s with visibleIdx := 0 } : State).markChanged) rfl) rfl

/-- DEMO_STEP does not read the event that waits (R207). -/
theorem demoStep_pastEvent (s : State) : demoStep s.pastEvent = (demoStep s).pastEvent := by
  unfold demoStep
  rw [apply_ite State.pastEvent]
  exact if_congr Iff.rfl (countDemoCycle_pastEvent ({ s with demoIdx := 0 } : State).markChanged) rfl

/-- ADVANCE does not read the event that waits (R200). -/
theorem advance_pastEvent (s : State) : advance s.pastEvent = (advance s).pastEvent := by
  unfold advance
  cases s.demoMode with
  | scrollFont =>
    rw [apply_ite State.pastEvent, ← demoStep_pastEvent]
    rfl
  | off =>
    cases s.effect with
    | blink =>
      rw [apply_ite State.pastEvent, ← blinkToggle_pastEvent]
      rfl
    | scrollLeft =>
      rw [apply_ite State.pastEvent, ← scrollStep_pastEvent]
      rfl
    | none => rfl

/-- Settles O39: ADVANCE does not read the event that named the micro-step. -/
theorem advanceMicroStep : Obligations.AdvanceMicroStep := by
  intro s hnext hfsm
  have hevents : (advance s).events = s.events := by rw [advance_frame]
  rw [step_of_microNext hnext, microStep_advance (s := s.pastEvent) hfsm, microAdvance, advance_pastEvent, State.pastEvent, hevents]

/-- Settles O41: the position's entry of `FRAME` is read, and the event that named the micro-step is not. -/
theorem txLowMicroStep : Obligations.TxLowMicroStep := by
  intro s f hnext hfsm hframe
  rw [step_of_microNext hnext, microStep_txLow (s := s.pastEvent) hfsm]
  exact microTxLow_eq_next.mpr ⟨f, hframe, rfl⟩

/-- Settles O42: `bit_idx` stays at 0 with the last bit and counts down before it. -/
theorem txShiftMicroStep : Obligations.TxShiftMicroStep := by
  rintro s _ hnext hfsm rfl
  refine ⟨_, (step_of_microNext hnext).trans ((microStep_txShift (s := s.pastEvent) hfsm).trans (microTxShift_eq _)),
    ?_, ?_, rfl⟩
  · by_cases hlast : s.bitIdx = 0
    · simp [hlast]
    · simp only [if_neg hlast]
      bv_omega
  · rw [← hfsm]
    exact if_congr BitVec.toNat_inj.symm rfl rfl

/-- Settles O43: the position counts up but after the last, where the pass ends. -/
theorem txHighMicroStep : Obligations.TxHighMicroStep := by
  intro s hnext hfsm hdigit hdigits
  refine ⟨_, (step_of_microNext hnext).trans ((microStep_txHigh (s := s.pastEvent) hfsm).trans (microTxHigh_eq _)),
    fun hlast => ?_, fun hmore => ?_, rfl⟩
  · have hend : s.digitIdx.toNat + 1 = s.ndig.toNat := by omega
    exact ⟨if_pos hend, if_pos hend⟩
  · have hgo : s.digitIdx.toNat + 1 ≠ s.ndig.toNat := by omega
    refine ⟨if_neg hgo, ?_⟩
    simp only [if_neg hgo]
    bv_omega

end Sys2Proof.Machine
end

section
/-! PROOFS. The serial trace and the chip's outputs: TX_LOW, TX_SHIFT and TX_HIGH alone write them (R190, R237). -/

namespace Sys2Proof.Machine

/-- Agreement on the serial trace, on what says where in it the machine stands, and on the chip's outputs. -/
structure SameLink (s t : State) : Prop where
  fsm : t.fsm = s.fsm
  bitIdx : t.bitIdx = s.bitIdx
  trace : t.trace = s.trace
  chipOut : t.chipOut = s.chipOut

/-- No command reaches the serial link (R120). -/
theorem exec_sameLink {i : Instr} {s t : State} (hexec : exec i s = .next t) : SameLink s t := by
  obtain ⟨u, st, n, heff, rfl⟩ := exec_effect hexec
  rw [heff.writes]
  exact ⟨rfl, rfl, rfl, rfl⟩

/-- REBUILD does not reach the serial link (R160). -/
theorem rebuild_sameLink {s u : State} (h : rebuild s = .ok u) : SameLink s u := by
  obtain ⟨f, -, rfl⟩ := rebuild_eq_ok.mp h
  exact ⟨rfl, rfl, rfl, rfl⟩

/-- The extra step of `mixed` does not reach the serial link. -/
theorem midpassStep_sameLink {s t : State} (h : midpassStep s = .next t) : SameLink s t := by
  obtain ⟨-, rfl⟩ | ⟨-, hrebuild⟩ := midpassStep_eq_next.mp h
  · exact ⟨rfl, rfl, rfl, rfl⟩
  · exact rebuild_sameLink hrebuild

/-- A step that reaches the serial link is a micro-step of the FSM or a reset (R190). -/
theorem step_micro_or_sameLink {s t : State} (hstep : step s = .next t) (hreset : s.events.head? ≠ some .reset) :
    (microNext s ∧ MicroTaken s.pastEvent t) ∨ SameLink s t := by
  cases step_taken hstep with
  | micro hnext hmicro => exact .inl ⟨hnext, microStep_taken hmicro⟩
  | reset hhead => exact absurd hhead hreset
  | command hexec =>
    obtain ⟨hfsm, hbit, htrace, hout⟩ := exec_sameLink hexec
    exact .inr ⟨hfsm, hbit, htrace, hout⟩
  | midpass hmidpass =>
    obtain ⟨hfsm, hbit, htrace, hout⟩ := midpassStep_sameLink hmidpass
    exact .inr ⟨hfsm, hbit, htrace, hout⟩
  | tick | receive | brightness => exact .inr ⟨rfl, rfl, rfl, rfl⟩

/-- Of the micro-steps TX_HIGH alone writes the chip's outputs (R237). -/
theorem MicroTaken.chipOut_eq_or_txHigh {s t : State} (h : MicroTaken s t) :
    t.chipOut = s.chipOut ∨ s.fsm = .txHigh ∧ t.load = true ∧ t.trace = s.trace ++ [.loadHigh] := by
  cases h with
  | txHigh hfsm => exact .inr ⟨hfsm, rfl, rfl⟩
  | advance => exact .inl (by rw [advance_frame])
  | rebuild _ _ hrebuild =>
    have hlink := rebuild_sameLink hrebuild
    exact .inl hlink.chipOut
  | _ => exact .inl rfl

/-- Settles O47: the step that changes the outputs is a micro-step, and of these TX_HIGH. -/
theorem outputsChangeAtLoadHigh : Obligations.OutputsChangeAtLoadHigh := by
  intro s t hstep hreset
  obtain ⟨hnext, hmicro⟩ | hsame := step_micro_or_sameLink hstep hreset
  · exact hmicro.chipOut_eq_or_txHigh.imp_right fun ⟨hfsm, hload, htrace⟩ => ⟨hfsm, hnext, hload, htrace⟩
  · exact .inl hsame.chipOut

/-- What a micro-step emits continues the open transmission to the one that the FSM's registers then name (R190 (a)). -/
theorem MicroTaken.emits {s t : State} (h : MicroTaken s t) (hbit : s.bitIdx.toNat ≤ 23) :
    ∃ es, t.trace = s.trace ++ es ∧ scanTrace (openTransmission s) es = some (openTransmission t) := by
  cases h with
  | wait => exact ⟨[], by simp, rfl⟩
  | enter hfsm =>
    refine ⟨[], by simp, ?_⟩
    cases hconf : s.configured <;> simp [scanTrace, openTransmission, hfsm, hconf]
  | advance hfsm =>
    refine ⟨[], ?_, ?_⟩
    · rw [advance_frame]; simp
    · simp [scanTrace, openTransmission, hfsm]
  | fresh hfsm => exact ⟨[], by simp, by simp [scanTrace, openTransmission, hfsm]⟩
  | rebuild hfsm _ hrebuild =>
    have hlink := rebuild_sameLink hrebuild
    exact ⟨[], by simp [hlink.trace], by simp [scanTrace, openTransmission, hfsm]⟩
  | txLow hfsm => exact ⟨[.loadLow], rfl, by simp [scanTrace, openTransmission, hfsm]⟩
  | txShift hfsm =>
    refine ⟨[_], rfl, ?_⟩
    by_cases hlast : s.bitIdx = 0
    · simp [scanTrace, openTransmission, hfsm, hlast]
    · have hcount : 23 - s.bitIdx.toNat + 1 = 23 - (s.bitIdx - 1).toNat := by bv_omega
      have hlt : 23 - s.bitIdx.toNat < 24 := by omega
      simp only [scanTrace, openTransmission, hfsm, if_pos hlt, if_neg hlast, hcount]
  | txHigh hfsm =>
    refine ⟨[.loadHigh], rfl, ?_⟩
    by_cases hlast : s.digitIdx.toNat + 1 = s.ndig.toNat <;> simp [scanTrace, openTransmission, hfsm, hlast]

/-- Settles O48: what a micro-step emits continues the trace, and no other step writes the trace or moves the FSM. -/
theorem serialTraceAlternates : Obligations.SerialTraceAlternates := by
  intro s t hinv hscan hstep hreset
  obtain ⟨-, hmicro⟩ | hsame := step_micro_or_sameLink hstep hreset
  · obtain ⟨es, htrace, hemits⟩ := hmicro.emits hinv.bit
    rw [htrace]
    exact (scanTrace_append _ es _ _ hscan).trans hemits
  · have hopen : openTransmission t = openTransmission s := by simp only [openTransmission, hsame.fsm, hsame.bitIdx]
    rw [hsame.trace, hopen, hscan]

end Sys2Proof.Machine
end

section
/-! PROOFS. No step can be stuck (R62, R180, R220). -/

namespace Sys2Proof.Machine

variable {s : State}

/-- Every command completes (R120). -/
theorem exec_completes (i : Instr) (s : State) : ∃ t, exec i s = .next t := by
  obtain ⟨u, st, n, hexec, -, -⟩ := exec_answer i s
  exact ⟨_, hexec⟩

/-- REBUILD completes while a pass runs (R182, R185). -/
theorem BlockInv.exists_rebuild (h : BlockInv s) (hfsm : s.fsm ≠ .idle) : ∃ u, rebuild s = .ok u := by
  obtain ⟨hdisplay, hrefresh, -⟩ := blockInv_iff.mp h
  exact hdisplay.exists_rebuild (hrefresh.configured hfsm)

/-- The position that a pass transmits has its entry of `FRAME` (R14, R31). -/
theorem BlockInv.exists_frame (h : BlockInv s) (hfsm : s.fsm = .txLow) : ∃ f, s.frame[s.digitIdx.toNat]? = some f := by
  obtain ⟨hdisplay, hrefresh, -⟩ := blockInv_iff.mp h
  obtain ⟨-, -, hsum, -, -⟩ := hdisplay.maps (hrefresh.configured (by simp [hfsm]))
  have hdigit := hrefresh.digit (.inl hfsm)
  exact ⟨_, Vector.getElem?_eq_getElem (by omega)⟩

/-- Every micro-step completes (R180). -/
theorem microStep_completes (h : BlockInv s) : ∃ t, microStep s = .next t := by
  cases hfsm : s.fsm with
  | idle => exact ⟨_, microStep_idle hfsm⟩
  | advance => exact ⟨_, microStep_advance hfsm⟩
  | rebuild =>
    obtain ⟨u, hu⟩ := h.exists_rebuild (by simp [hfsm])
    rw [microStep_rebuild hfsm]
    cases hchanged : s.contentChanged with
    | false => exact ⟨_, microRebuild_eq_next.mpr (.inl ⟨hchanged, rfl⟩)⟩
    | true => exact ⟨_, microRebuild_eq_next.mpr (.inr ⟨hchanged, u, hu, rfl⟩)⟩
  | txLow =>
    obtain ⟨f, hf⟩ := h.exists_frame hfsm
    rw [microStep_txLow hfsm]
    exact ⟨_, microTxLow_eq_next.mpr ⟨f, hf, rfl⟩⟩
  | txShift => exact ⟨_, (microStep_txShift hfsm).trans (microTxShift_eq s)⟩
  | txHigh => exact ⟨_, (microStep_txHigh hfsm).trans (microTxHigh_eq s)⟩

/-- The extra step of `mixed` completes: where it rebuilds a pass runs (93 U2). -/
theorem midpassStep_completes (h : BlockInv s) : ∃ t, midpassStep s = .next t := by
  by_cases henabled : s.cfg.midpass = .mixed ∧ s.fsm = .txLow ∧ 0 < s.digitIdx.toNat ∧ s.contentChanged
  · have hfsm : s.fsm = .txLow := henabled.2.1
    obtain ⟨u, hu⟩ := h.exists_rebuild (by simp [hfsm])
    exact ⟨u, midpassStep_eq_next.mpr (.inr ⟨henabled, hu⟩)⟩
  · exact ⟨s, midpassStep_eq_next.mpr (.inl ⟨henabled, rfl⟩)⟩

/-- A header completes at an idle port (R62, R80). -/
theorem takeHeader_completes (w : Word) (hport : s.port = .idle) : ∃ t, takeHeader w s = .next t := by
  obtain hn | hn := Nat.eq_zero_or_pos (hdrN w)
  · rw [takeHeader_of_no_payload hport hn]
    exact exec_completes _ _
  · exact ⟨_, takeHeader_of_payload hport hn⟩

/-- A payload byte completes where one is missing (R80). -/
theorem takePayload_completes (b : Byte) (h : PortInv s) (hport : s.port ≠ .idle) : ∃ t, takePayload b s = .next t := by
  cases hp : s.port with
  | idle => exact absurd hp hport
  | receiving w got =>
    have hmissing : got.length < hdrN w := h w got hp
    obtain hmore | hlast : got.length + 1 < hdrN w ∨ got.length + 1 = hdrN w := by omega
    · exact ⟨_, takePayload_of_missing b hp hmore⟩
    · rw [takePayload_of_last b hp hlast]
      exact exec_completes _ _

/-- Settles O52, by the event that the step takes. -/
theorem stepsComplete : Obligations.StepsComplete := by
  intro s h hheader hpayload
  cases hev : s.events with
  | nil =>
    rw [step_of_no_event hev]
    exact microStep_completes h
  | cons e rest =>
    rw [step_of_event hev]
    have hrest : BlockInv { s with events := rest } := { h with }
    cases e with
    | micro => exact microStep_completes hrest
    | header w => exact takeHeader_completes w (hheader w rest hev)
    | payload b => exact takePayload_completes b hrest.port (hpayload b rest hev)
    | midpassRebuild => exact midpassStep_completes hrest
    | tick | reset | configurePwm | setBrightness | writeDuty => exact ⟨_, rfl⟩

end Sys2Proof.Machine
end

section
/-! PROOFS. What the chip lights: one digit at a time, with its frame's segments (R168, R190, R238). -/

namespace Sys2Proof.Machine

variable {s : State} {f : Frame} {p q seg : Nat}

/-- The output pins show bits 19:0 of the frame that the chip shows (R237). -/
theorem getLsbD_chipOut (hout : s.chipOut = f.extractLsb' 0 20) {j : Nat} (hj : j ≤ 19) : s.chipOut.getLsbD j = f.getLsbD j := by
  rw [hout, BitVec.getLsbD_extractLsb', decide_eq_true (show j < 20 by omega), Bool.true_and, Nat.zero_add]

/-- A SegmentMap pin is one of OUT0 to OUT19 (R12). -/
theorem segPin_le (hm : MapsValid s) (hseg : seg < s.nseg.toNat) : (segPin s seg).toNat ≤ 19 := by
  obtain ⟨-, -, hsum, hle, -⟩ := hm
  obtain ⟨pin, hmem, hpin⟩ := isSegPin_mem (by omega) ⟨seg, hseg, rfl⟩
  rw [← hpin]
  exact hle pin (List.mem_append_left _ hmem)

/-- A frame of position `p` selects `p` alone (R168 (a)). -/
theorem FrameShape.selects {pin : Pin} (h : FrameShape s p f) (hq : q < s.ndig.toNat) (hpin : posPin s q = .ok pin) :
    f.getLsbD pin.toNat = true ↔ q = p := by
  obtain ⟨-, hown, hothers, -⟩ := h
  refine ⟨fun hset => ?_, fun heq => hown pin (heq ▸ hpin)⟩
  by_contra hne
  rw [hothers q pin hq hne hpin] at hset
  cases hset

/-- A segment is lit where its position's pin and its own are set and the display is not blanked (R238). -/
theorem segmentLit_of_posPin {pin : Pin} (hpin : posPin s q = .ok pin) (seg : Nat) (blanked : Bool) :
    segmentLit s seg q blanked = (s.chipOut.getLsbD pin.toNat && s.chipOut.getLsbD (segPin s seg).toNat && !blanked) := by
  unfold segmentLit
  rw [hpin]

/-- Settles O56: the chip shows the frame's bits at the position's pin, which only the frame's own position has set, and at the
segment's pin. -/
theorem oneDigitLit : Obligations.OneDigitLit := by
  intro s f p q seg hm _ hq hseg hshape hout
  have hpin := posPin_of_lt (s := s) (p := q) (by obtain ⟨-, -, hsum, -, -⟩ := hm; omega)
  rw [segmentLit_of_posPin hpin, segmentLit_of_posPin hpin, getLsbD_chipOut hout (posPin_le hm hq hpin),
    getLsbD_chipOut hout (segPin_le hm hseg), Bool.not_false, Bool.and_true, Bool.and_eq_true, hshape.selects hq hpin]
  exact ⟨Iff.rfl, Bool.and_false _⟩

end Sys2Proof.Machine
end

section
/-! PROOFS. One interval of the timer, and the steps it ends in (R200, R203, R205, R207). -/

namespace Sys2Proof.Machine

variable {s : State}

/-- Inside an interval a tick only counts (R200). -/
theorem interval_of_waiting {period : Nat} (op : State → State) (h : s.effTimer + 1 < period) :
    (if timerDue period s then op (timerTick period s) else timerTick period s) = { s with effTimer := s.effTimer + 1 } := by
  have hnot : ¬period ≤ s.effTimer + 1 := by omega
  simp only [timerDue, timerTick, hnot, decide_false, Bool.false_eq_true, if_false]

/-- The tick that completes an interval clears the timer and performs the step (R200). -/
theorem interval_of_due {period : Nat} (op : State → State) (h : period ≤ s.effTimer + 1) :
    (if timerDue period s then op (timerTick period s) else timerTick period s) = op { s with effTimer := 0 } := by
  simp only [timerDue, timerTick, h, decide_true, if_true]

/-- While the demo runs its step ends the interval, whatever the effect (R200). -/
theorem advance_of_demo (hdemo : s.demoMode = .scrollFont) :
    advance s = if timerDue s.cfg.scrollTicks s then demoStep (timerTick s.cfg.scrollTicks s)
      else timerTick s.cfg.scrollTicks s := by
  unfold advance; rw [hdemo]

theorem advance_of_blink (hoff : s.demoMode = .off) (heff : s.effect = .blink) :
    advance s = if timerDue s.cfg.blinkHalfTicks s then blinkToggle (timerTick s.cfg.blinkHalfTicks s)
      else timerTick s.cfg.blinkHalfTicks s := by
  unfold advance; rw [hoff, heff]

theorem advance_of_scroll (hoff : s.demoMode = .off) (heff : s.effect = .scrollLeft) :
    advance s = if timerDue s.cfg.scrollTicks s then scrollStep (timerTick s.cfg.scrollTicks s)
      else timerTick s.cfg.scrollTicks s := by
  unfold advance; rw [hoff, heff]

/-- With nothing running the timer is held at 0 (R200). -/
theorem advance_of_none (hoff : s.demoMode = .off) (heff : s.effect = .none) : advance s = { s with effTimer := 0 } := by
  unfold advance; rw [hoff, heff]

/-- Settles O31: what runs names the interval and its step. -/
theorem advanceRule : Obligations.AdvanceRule := by
  intro s
  refine ⟨fun hdemo => ?_, fun hoff heff => ?_, fun hoff heff => ?_, advance_of_none⟩
  · rw [advance_of_demo hdemo]
    exact ⟨interval_of_waiting _, interval_of_due _⟩
  · rw [advance_of_blink hoff heff]
    exact ⟨interval_of_waiting _, interval_of_due _⟩
  · rw [advance_of_scroll hoff heff]
    exact ⟨interval_of_waiting _, interval_of_due _⟩

/-- A count goes down to 0 from 1 alone (R208). -/
theorem count_sub_one_eq_zero {x : BitVec 8} : x - 1 = 0 ↔ x.toNat = 1 := by
  bv_omega

/-- An endless effect counts nothing (R20). -/
theorem countCycle_of_endless (h : s.cycleNum = 0) : countCycle s = s := if_pos h

/-- A cycle that is not the last is counted down (R203, R205). -/
theorem countCycle_of_more (h : s.cycleNum ≠ 0) (hmore : 2 ≤ s.cyclesLeft.toNat) :
    countCycle s = { s with cyclesLeft := s.cyclesLeft - 1 } := by
  obtain ⟨hendless, -⟩ | ⟨-, hzero, -⟩ | ⟨-, -, heq⟩ := countCycle_cases s
  · exact absurd hendless h
  · have := count_sub_one_eq_zero.mp hzero
    omega
  · exact heq

/-- The last cycle ends the effect (R203, R205). -/
theorem countCycle_of_last (h : s.cycleNum ≠ 0) (hlast : s.cyclesLeft.toNat = 1) :
    countCycle s = { s with cyclesLeft := 0, effect := .none } := by
  obtain ⟨hendless, -⟩ | ⟨-, -, heq⟩ | ⟨-, hmore, -⟩ := countCycle_cases s
  · exact absurd hendless h
  · exact heq
  · exact absurd (count_sub_one_eq_zero.mpr hlast) hmore

/-- An endless demo counts nothing (R207). -/
theorem countDemoCycle_of_endless (h : s.demoCycleNum = 0) : countDemoCycle s = s := if_pos h

/-- A demo cycle that is not the last is counted down (R207). -/
theorem countDemoCycle_of_more (h : s.demoCycleNum ≠ 0) (hmore : 2 ≤ s.demoCyclesLeft.toNat) :
    countDemoCycle s = { s with demoCyclesLeft := s.demoCyclesLeft - 1 } := by
  obtain ⟨hendless, -⟩ | ⟨-, hzero, -⟩ | ⟨-, -, heq⟩ := countDemoCycle_cases s
  · exact absurd hendless h
  · have := count_sub_one_eq_zero.mp hzero
    omega
  · exact heq

/-- The last cycle ends the demo (R207). -/
theorem countDemoCycle_of_last (h : s.demoCycleNum ≠ 0) (hlast : s.demoCyclesLeft.toNat = 1) :
    countDemoCycle s = { s with demoCyclesLeft := 0, demoMode := .off } := by
  obtain ⟨hendless, -⟩ | ⟨-, -, heq⟩ | ⟨-, hmore, -⟩ := countDemoCycle_cases s
  · exact absurd hendless h
  · exact heq
  · exact absurd (count_sub_one_eq_zero.mpr hlast) hmore

/-- Counting a cycle and marking the content changed write different registers. -/
theorem countCycle_markChanged (s : State) : (countCycle s).markChanged = countCycle s.markChanged :=
  apply_ite State.markChanged _ _ _

/-- On to off begins the off half (R203). -/
theorem blinkToggle_of_on (h : s.blinkOn = true) : blinkToggle s = { s with blinkOn := false, contentChanged := true } := if_pos h

/-- Off to on completes one period (R203). -/
theorem blinkToggle_of_off (h : s.blinkOn = false) :
    blinkToggle s = countCycle { s with blinkOn := true, contentChanged := true } := by
  unfold blinkToggle
  rw [if_neg (by rw [h]; exact Bool.false_ne_true), countCycle_markChanged]
  rfl

/-- Settles O32: off to on counts a cycle, of which there are the three cases of the count. -/
theorem blinkToggleRule : Obligations.BlinkToggleRule := by
  intro s
  refine ⟨blinkToggle_of_on, fun hoff hnum => ?_, fun hoff hnum hmore => ?_, fun hoff hnum hlast => ?_⟩
  · rw [blinkToggle_of_off hoff]; exact countCycle_of_endless hnum
  · rw [blinkToggle_of_off hoff]; exact countCycle_of_more hnum hmore
  · rw [blinkToggle_of_off hoff]; exact countCycle_of_last hnum hlast

theorem windowWidth_eq {w : Nat} (hwindow : s.startPos.toNat ≤ s.maxPos.toNat)
    (hw : w = s.maxPos.toNat - s.startPos.toNat + 1) : windowWidth s = w := by
  unfold windowWidth; omega

/-- The window moves on where a whole window of text lies ahead (R205). -/
theorem scrollStep_of_inside (h : s.effect = .scrollLeft) (hin : s.visibleIdx + 1 + windowWidth s ≤ s.textLen) :
    scrollStep s = { s with visibleIdx := s.visibleIdx + 1, contentChanged := true } := by
  obtain ⟨hother, -⟩ | ⟨-, -, heq⟩ | ⟨-, hend, -⟩ := scrollStep_cases s
  · exact absurd h hother
  · exact heq
  · omega

/-- The window wraps at the text's end, which counts a cycle (R205). -/
theorem scrollStep_of_end (h : s.effect = .scrollLeft) (hend : s.textLen < s.visibleIdx + 1 + windowWidth s) :
    scrollStep s = countCycle { s with visibleIdx := 0, contentChanged := true } := by
  obtain ⟨hother, -⟩ | ⟨-, hin, -⟩ | ⟨-, -, heq⟩ := scrollStep_cases s
  · exact absurd h hother
  · omega
  · exact heq

/-- Settles O17: a wrap counts a cycle, of which there are the three cases of the count. -/
theorem scrollStepRule : Obligations.ScrollStepRule := by
  intro s w hwindow hw
  rw [← windowWidth_eq hwindow hw]
  refine ⟨fun hother => if_neg hother, scrollStep_of_inside, fun h hend hnum => ?_, fun h hend hnum hmore => ?_,
    fun h hend hnum hlast => ?_⟩
  · rw [scrollStep_of_end h hend]; exact countCycle_of_endless hnum
  · rw [scrollStep_of_end h hend]; exact countCycle_of_more hnum hmore
  · rw [scrollStep_of_end h hend]; exact countCycle_of_last hnum hlast

/-- The demo's window moves on where it does not pass the last character (R207). -/
theorem demoStep_of_inside (hin : s.demoIdx.toNat + 1 + s.ndig.toNat ≤ 95) :
    demoStep s = { s with demoIdx := s.demoIdx + 1, contentChanged := true } := by
  obtain ⟨-, heq⟩ | ⟨hend, -⟩ := demoStep_cases s
  · exact heq
  · omega

/-- The demo's window wraps at the font's end, which counts a cycle (R207). -/
theorem demoStep_of_end (hend : 95 < s.demoIdx.toNat + 1 + s.ndig.toNat) :
    demoStep s = countDemoCycle { s with demoIdx := 0, contentChanged := true } := by
  obtain ⟨hin, -⟩ | ⟨-, heq⟩ := demoStep_cases s
  · omega
  · exact heq

/-- Settles O33: a wrap counts a cycle, of which there are the three cases of the count. -/
theorem demoStepRule : Obligations.DemoStepRule := by
  intro s
  refine ⟨fun hin => ?_, fun hend hnum => ?_, fun hend hnum hmore => ?_, fun hend hnum hlast => ?_⟩
  · have hnext : (s.demoIdx + 1).toNat = s.demoIdx.toNat + 1 := by bv_omega
    exact ⟨_, demoStep_of_inside hin, hnext, rfl⟩
  · rw [demoStep_of_end hend]; exact countDemoCycle_of_endless hnum
  · rw [demoStep_of_end hend]; exact countDemoCycle_of_more hnum hmore
  · rw [demoStep_of_end hend]; exact countDemoCycle_of_last hnum hlast

end Sys2Proof.Machine
end

section
/-! PROOFS. What runs after any number of ticks: the timer counts ticks, a place counts intervals and a count goes down by one each
time the places have been gone through (R200 to R207). -/

namespace Sys2Proof.Machine

/-- The next number in base `m`: its last digit goes up, or returns to 0 with a carry. -/
theorem succ_mod_div {m : Nat} (hm : 0 < m) (n : Nat) :
    (n % m + 1 < m ∧ (n + 1) % m = n % m + 1 ∧ (n + 1) / m = n / m) ∨
      (n % m + 1 = m ∧ (n + 1) % m = 0 ∧ (n + 1) / m = n / m + 1) := by
  have hdigits : n % m + m * (n / m) = n := Nat.mod_add_div n m
  obtain hlt | hlast : n % m + 1 < m ∨ n % m + 1 = m := by have := Nat.mod_lt n hm; omega
  · obtain ⟨hdiv, hmod⟩ := (Nat.div_mod_unique (a := n + 1) (c := n % m + 1) (d := n / m) hm).mpr ⟨by omega, hlt⟩
    exact .inl ⟨hlt, hmod, hdiv⟩
  · obtain ⟨hdiv, hmod⟩ := (Nat.div_mod_unique (a := n + 1) (c := 0) (d := n / m + 1) hm).mpr
      ⟨by rw [Nat.mul_succ]; omega, hm⟩
    exact .inr ⟨hlast, hmod, hdiv⟩

/-- How ADVANCE takes something that runs through `period` places of `ticks` ticks, `c` times or for ever: `run k p l` is the state
with the timer at `k`, at place `p`, with `l` cycles left. -/
structure Timeline (run : Nat → Nat → Nat → State) (Ended : State → Prop) (c ticks period : Nat) : Prop where
  ticks_pos : 0 < ticks
  period_pos : 0 < period
  /-- Inside an interval a tick only counts. -/
  wait : ∀ k p l, k + 1 < ticks → advance (run k p l) = run (k + 1) p l
  /-- The end of an interval goes on to the next place. -/
  move : ∀ k p l, k + 1 = ticks → p + 1 < period → advance (run k p l) = run 0 (p + 1) l
  /-- After the last place an endless run begins anew. -/
  wrapEndless : ∀ k p l, k + 1 = ticks → p + 1 = period → c = 0 → advance (run k p l) = run 0 0 l
  /-- After the last place a counted run begins anew, with one cycle less. -/
  wrap : ∀ k p l, k + 1 = ticks → p + 1 = period → 2 ≤ l → l ≤ c → advance (run k p l) = run 0 0 (l - 1)
  /-- The last cycle ends the run. -/
  last : ∀ k p, k + 1 = ticks → p + 1 = period → c ≠ 0 → Ended (advance (run k p 1))
  /-- What has ended stays so. -/
  ended : ∀ u, Ended u → Ended (advance u)

variable {run : Nat → Nat → Nat → State} {Ended : State → Prop} {c ticks period : Nat}

/-- While it runs, timer, place and count are the digits of the number of ticks. -/
theorem Timeline.iterate_of_running (h : Timeline run Ended c ticks period) :
    ∀ n, c = 0 ∨ n < c * period * ticks →
      advance^[n] (run 0 0 c) = run (n % ticks) (n / ticks % period) (c - n / ticks / period)
  | 0, _ => by simp
  | n + 1, hn => by
    have hrun := h.iterate_of_running n (hn.imp_right fun hlt => by omega)
    rw [Function.iterate_succ_apply', hrun]
    obtain ⟨hk, hmod, hdiv⟩ | ⟨hk, hmod, hdiv⟩ := succ_mod_div h.ticks_pos n
    · rw [hmod, hdiv, h.wait _ _ _ hk]
    obtain ⟨hp, hplace, hround⟩ | ⟨hp, hplace, hround⟩ := succ_mod_div h.period_pos (n / ticks)
    · rw [hmod, hdiv, hplace, hround, h.move _ _ _ hk hp]
    rw [hmod, hdiv, hplace, hround]
    obtain hendless | hlt := hn
    · rw [h.wrapEndless _ _ _ hk hp hendless, hendless, Nat.zero_sub, Nat.zero_sub]
    · have hmore : (n + 1) / ticks / period < c := by
        rw [Nat.div_div_eq_div_mul]
        exact Nat.div_lt_of_lt_mul (by rwa [Nat.mul_comm, Nat.mul_comm ticks, ← Nat.mul_assoc])
      rw [hdiv, hround] at hmore
      rw [h.wrap _ _ _ hk hp (by omega) (Nat.sub_le _ _), Nat.sub_sub]

/-- The tick that completes the last cycle ends it. -/
theorem Timeline.ended_at_last (h : Timeline run Ended c ticks period) (hc : c ≠ 0) :
    Ended (advance^[c * period * ticks] (run 0 0 c)) := by
  have hpos : 0 < c * period * ticks := Nat.mul_pos (Nat.mul_pos (by omega) h.period_pos) h.ticks_pos
  obtain ⟨n, hn⟩ : ∃ n, c * period * ticks = n + 1 := ⟨c * period * ticks - 1, by omega⟩
  have hdiv : (n + 1) / ticks = c * period := by rw [← hn]; exact Nat.mul_div_cancel _ h.ticks_pos
  have hmod : (n + 1) % ticks = 0 := by rw [← hn]; exact Nat.mul_mod_left _ _
  obtain ⟨-, hne, -⟩ | ⟨hk, -, hplaces⟩ := succ_mod_div h.ticks_pos n
  · omega
  rw [hplaces] at hdiv
  have hround : (n / ticks + 1) / period = c := by rw [hdiv]; exact Nat.mul_div_cancel _ h.period_pos
  have hplace : (n / ticks + 1) % period = 0 := by rw [hdiv]; exact Nat.mul_mod_left _ _
  obtain ⟨-, hne, -⟩ | ⟨hp, -, hcycles⟩ := succ_mod_div h.period_pos (n / ticks)
  · omega
  have hone : c - n / ticks / period = 1 := by omega
  rw [hn, Function.iterate_succ_apply', h.iterate_of_running n (.inr (by omega)), hone]
  exact h.last _ _ hk hp hc

/-- From the end of the last cycle on the run has ended. -/
theorem Timeline.ended_of_le (h : Timeline run Ended c ticks period) (hc : c ≠ 0) {n : Nat} (hn : c * period * ticks ≤ n) :
    Ended (advance^[n] (run 0 0 c)) := by
  induction n, hn using Nat.le_induction with
  | base => exact h.ended_at_last hc
  | succ n _ ih => rw [Function.iterate_succ_apply']; exact h.ended _ ih

/-- A count register holds what is left of a count. -/
theorem count_left_toNat (c : Byte) (k : Nat) : (BitVec.ofNat 8 (c.toNat - k)).toNat = c.toNat - k := by
  rw [BitVec.toNat_ofNat]; exact Nat.mod_eq_of_lt (by omega)

/-- A count register that holds `l` cycles goes down with them. -/
theorem count_ofNat_sub_one {l : Nat} (h : 1 ≤ l) : BitVec.ofNat 8 l - 1 = BitVec.ofNat 8 (l - 1) :=
  BitVec.ofNat_sub_ofNat_of_le l 1 (by decide) h

/-- The count register holds at least two cycles where there are at least two. -/
theorem two_le_count {c : Byte} {l : Nat} (h : 2 ≤ l) (hle : l ≤ c.toNat) : 2 ≤ (BitVec.ofNat 8 l).toNat := by
  rw [BitVec.toNat_ofNat, Nat.mod_eq_of_lt (by omega)]; exact h

/-- Count 0, as a number or as a register, is the endless one (R20). -/
theorem count_eq_zero_iff (c : Byte) : c.toNat = 0 ↔ c = 0 := BitVec.toNat_inj (y := 0)

/-- Where two cycles are left the count is not the endless one. -/
theorem count_ne_zero_of_two_le {c : Byte} {l : Nat} (h : 2 ≤ l) (hle : l ≤ c.toNat) : c ≠ 0 := by
  rintro rfl
  exact absurd (h.trans hle) (by decide)

end Sys2Proof.Machine
end

section
/-! PROOFS. The timelines of blink, scroll and demo (R203 to R207). -/

namespace Sys2Proof.Machine

/-- A blink of count `c` over the other registers of `s`: the timer at `k`, on at place 0 and off at place 1 of its
period (R203). -/
def State.blinking (s : State) (c : Byte) (k p l : Nat) : State :=
  { s with
    effect := .blink
    cycleNum := c
    effTimer := k
    blinkOn := decide (p = 0)
    cyclesLeft := BitVec.ofNat 8 l
    contentChanged := true }

/-- A scroll of count `c` over the other registers of `s`: the timer at `k`, the window at character `p` (R205). -/
def State.scrolling (s : State) (c : Byte) (k p l : Nat) : State :=
  { s with
    effect := .scrollLeft
    cycleNum := c
    effTimer := k
    blinkOn := true
    visibleIdx := p
    cyclesLeft := BitVec.ofNat 8 l
    contentChanged := true }

/-- A demo of count `c` over the other registers of `s`: the timer at `k`, the window at font character `p` (R207). -/
def State.demoing (s : State) (c : Byte) (k p l : Nat) : State :=
  { s with
    demoMode := .scrollFont
    demoCycleNum := c
    effTimer := k
    demoIdx := BitVec.ofNat 7 p
    demoCyclesLeft := BitVec.ofNat 8 l
    contentChanged := true }

/-- A blink of count `c` that has run out (R203). -/
structure BlinkEnded (c : Byte) (u : State) : Prop where
  noDemo : u.demoMode = .off
  noEffect : u.effect = .none
  on : u.blinkOn = true
  noneLeft : u.cyclesLeft = 0
  count : u.cycleNum = c

/-- A scroll that has run out (R205). -/
structure ScrollEnded (u : State) : Prop where
  noDemo : u.demoMode = .off
  noEffect : u.effect = .none
  atStart : u.visibleIdx = 0
  noneLeft : u.cyclesLeft = 0

/-- A demo that has run out (R207). -/
structure DemoEnded (u : State) : Prop where
  noDemo : u.demoMode = .off
  atStart : u.demoIdx = 0
  noneLeft : u.demoCyclesLeft = 0

variable {s t : State} {c : Byte}

/-- SET_TEXT_EFFECT starts a blink in its on phase, a whole interval ahead (R134). -/
theorem exec_setBlink (c : Byte) (s : State) :
    exec (.setTextEffect .blink c) s = .next ((s.respond .ok 0).blinking c 0 0 c.toNat) := by
  unfold State.blinking
  rw [BitVec.ofNat_toNat, BitVec.setWidth_eq]
  rfl

/-- SET_TEXT_EFFECT starts a scroll at the text's start, a whole interval ahead (R134). -/
theorem exec_setScroll (c : Byte) (s : State) :
    exec (.setTextEffect .scrollLeft c) s = .next ((s.respond .ok 0).scrolling c 0 0 c.toNat) := by
  unfold State.scrolling
  rw [BitVec.ofNat_toNat, BitVec.setWidth_eq]
  rfl

/-- SET_DEMO_MODE starts a demo at the font's start, a whole interval ahead (R139). -/
theorem exec_setDemo (c : Byte) (s : State) :
    exec (.setDemoMode .scrollFont c) s = .next ((s.respond .ok 0).demoing c 0 0 c.toNat) := by
  unfold State.demoing
  rw [BitVec.ofNat_toNat, BitVec.setWidth_eq]
  rfl

/-- With the demo off ADVANCE leaves its registers alone (R200). -/
theorem DemoEnded.advance (h : DemoEnded s) : DemoEnded (advance s) := by
  obtain ⟨hoff, hidx, hleft⟩ := h
  cases heff : s.effect with
  | none => rw [advance_of_none hoff heff]; exact ⟨hoff, hidx, hleft⟩
  | blink =>
    rw [advance_of_blink hoff heff]
    split
    · rw [blinkToggle_frame]; exact ⟨hoff, hidx, hleft⟩
    · exact ⟨hoff, hidx, hleft⟩
  | scrollLeft =>
    rw [advance_of_scroll hoff heff]
    split
    · rw [scrollStep_frame]; exact ⟨hoff, hidx, hleft⟩
    · exact ⟨hoff, hidx, hleft⟩

/-- The end of a half period of a blink (R203). -/
theorem advance_blinking_due (hoff : s.demoMode = .off) {k p l : Nat} (hk : k + 1 = s.cfg.blinkHalfTicks) :
    advance (s.blinking c k p l) = blinkToggle (s.blinking c 0 p l) :=
  (advance_of_blink (s := s.blinking c k p l) hoff rfl).trans (interval_of_due _ hk.ge)

/-- The end of the off half of a blink counts a cycle (R203). -/
theorem advance_blinking_off (hoff : s.demoMode = .off) {k p l : Nat} (hk : k + 1 = s.cfg.blinkHalfTicks) (hp : p + 1 = 2) :
    advance (s.blinking c k p l) = countCycle (s.blinking c 0 0 l) := by
  rw [advance_blinking_due hoff hk]
  exact blinkToggle_of_off (decide_eq_false (by omega))

/-- A blink goes through two places of a half period each. -/
theorem blinking_timeline (hoff : s.demoMode = .off) :
    Timeline (s.blinking c) (BlinkEnded c) c.toNat s.cfg.blinkHalfTicks 2 where
  ticks_pos := by obtain ⟨-, -, hhalf, -⟩ := s.cfg.ok; exact hhalf
  period_pos := Nat.two_pos
  wait k p l hk := (advance_of_blink (s := s.blinking c k p l) hoff rfl).trans (interval_of_waiting _ hk)
  move k p l hk hp := by
    obtain rfl : p = 0 := by omega
    rw [advance_blinking_due hoff hk]
    exact blinkToggle_of_on rfl
  wrapEndless k p l hk hp hc := by
    rw [advance_blinking_off hoff hk hp]
    exact countCycle_of_endless ((count_eq_zero_iff c).mp hc)
  wrap k p l hk hp hmore hle := by
    rw [advance_blinking_off hoff hk hp, countCycle_of_more (count_ne_zero_of_two_le hmore hle) (two_le_count hmore hle)]
    simp only [State.blinking, count_ofNat_sub_one (show 1 ≤ l by omega)]
  last k p hk hp hc := by
    rw [advance_blinking_off hoff hk hp, countCycle_of_last (mt (count_eq_zero_iff c).mpr hc) rfl]
    exact ⟨hoff, rfl, rfl, rfl, rfl⟩
  ended u hu := by
    rw [advance_of_none hu.noDemo hu.noEffect]
    exact { hu with }

/-- Settles O34: place 0 of a blink's period is its on half, place 1 its off half. -/
theorem blinkTimeline : Obligations.BlinkTimeline := by
  intro s t u c n half hoff hhalf ht hu
  obtain rfl := Host.Outcome.next.inj ((exec_setBlink c s).symm.trans ht)
  have htime : Timeline ((s.respond .ok 0).blinking c) (BlinkEnded c) c.toNat half 2 := hhalf ▸ blinking_timeline hoff
  rw [hu, Nat.mul_comm 2 c.toNat]
  refine ⟨fun hn => ?_, fun hc hn => ?_⟩
  · rw [htime.iterate_of_running n (hn.imp_left (count_eq_zero_iff c).mpr), Nat.mul_comm 2 half, ← Nat.div_div_eq_div_mul]
    exact ⟨rfl, decide_eq_true_iff, count_left_toNat c _, rfl⟩
  · have hend := htime.ended_of_le (mt (count_eq_zero_iff c).mp hc) hn
    exact ⟨hend.noEffect, hend.on, hend.noneLeft, hend.count⟩

/-- The end of an interval of a scroll (R205). -/
theorem advance_scrolling_due (hoff : s.demoMode = .off) {k p l : Nat} (hk : k + 1 = s.cfg.scrollTicks) :
    advance (s.scrolling c k p l) = scrollStep (s.scrolling c 0 p l) :=
  (advance_of_scroll (s := s.scrolling c k p l) hoff rfl).trans (interval_of_due _ hk.ge)

/-- The end of the last interval of a round of a scroll counts a cycle (R205). -/
theorem advance_scrolling_end (hoff : s.demoMode = .off) {k p l : Nat} (hk : k + 1 = s.cfg.scrollTicks)
    (hp : p + 1 = s.textLen - windowWidth s + 1) :
    advance (s.scrolling c k p l) = countCycle (s.scrolling c 0 0 l) := by
  rw [advance_scrolling_due hoff hk]
  exact scrollStep_of_end rfl (show s.textLen < p + 1 + windowWidth s by omega)

/-- A scroll goes through the places at which the window lies inside the text, or stays at 0 (R205, R206). -/
theorem scrolling_timeline (hoff : s.demoMode = .off) :
    Timeline (s.scrolling c) ScrollEnded c.toNat s.cfg.scrollTicks (s.textLen - windowWidth s + 1) where
  ticks_pos := by obtain ⟨-, -, -, hscroll, -⟩ := s.cfg.ok; exact hscroll
  period_pos := Nat.succ_pos _
  wait k p l hk := (advance_of_scroll (s := s.scrolling c k p l) hoff rfl).trans (interval_of_waiting _ hk)
  move k p l hk hp := by
    rw [advance_scrolling_due hoff hk]
    exact scrollStep_of_inside rfl (show p + 1 + windowWidth s ≤ s.textLen by omega)
  wrapEndless k p l hk hp hc := by
    rw [advance_scrolling_end hoff hk hp]
    exact countCycle_of_endless ((count_eq_zero_iff c).mp hc)
  wrap k p l hk hp hmore hle := by
    rw [advance_scrolling_end hoff hk hp, countCycle_of_more (count_ne_zero_of_two_le hmore hle) (two_le_count hmore hle)]
    simp only [State.scrolling, count_ofNat_sub_one (show 1 ≤ l by omega)]
  last k p hk hp hc := by
    rw [advance_scrolling_end hoff hk hp, countCycle_of_last (mt (count_eq_zero_iff c).mpr hc) rfl]
    exact ⟨hoff, rfl, rfl, rfl⟩
  ended u hu := by
    rw [advance_of_none hu.noDemo hu.noEffect]
    exact { hu with }

/-- Settles O35: the places of a scroll are the cursors of R206. -/
theorem scrollTimeline : Obligations.ScrollTimeline := by
  intro s t u c n ticks w period hoff hwindow hticks hw hperiod ht hu
  obtain rfl := Host.Outcome.next.inj ((exec_setScroll c s).symm.trans ht)
  have htime : Timeline ((s.respond .ok 0).scrolling c) ScrollEnded c.toNat ticks period := by
    rw [hticks, hperiod, ← windowWidth_eq hwindow hw]
    exact scrolling_timeline hoff
  rw [hu]
  refine ⟨fun hn => ?_, fun hc hn => ?_⟩
  · rw [htime.iterate_of_running n (hn.imp_left (count_eq_zero_iff c).mpr), Nat.mul_comm period, ← Nat.div_div_eq_div_mul]
    exact ⟨rfl, rfl, count_left_toNat c _⟩
  · have hend := htime.ended_of_le (mt (count_eq_zero_iff c).mp hc) hn
    exact ⟨hend.noEffect, hend.atStart, hend.noneLeft⟩

/-- The demo's cursor register holds every place of a round (R207). -/
theorem demoPlace_toNat {p ndig : Nat} (hp : p + 1 ≤ 96 - ndig) : (BitVec.ofNat 7 p).toNat = p := by
  rw [BitVec.toNat_ofNat]; exact Nat.mod_eq_of_lt (by omega)

/-- The end of an interval of a demo (R207). -/
theorem advance_demoing_due {k p l : Nat} (hk : k + 1 = s.cfg.scrollTicks) :
    advance (s.demoing c k p l) = demoStep (s.demoing c 0 p l) :=
  (advance_of_demo (s := s.demoing c k p l) rfl).trans (interval_of_due _ hk.ge)

/-- The end of the last interval of a round of the demo counts a cycle (R207). -/
theorem advance_demoing_end {k p l : Nat} (hk : k + 1 = s.cfg.scrollTicks) (hp : p + 1 = 96 - s.ndig.toNat) :
    advance (s.demoing c k p l) = countDemoCycle (s.demoing c 0 0 l) := by
  rw [advance_demoing_due hk]
  refine demoStep_of_end ?_
  show 95 < (BitVec.ofNat 7 p).toNat + 1 + s.ndig.toNat
  rw [demoPlace_toNat hp.le]
  omega

/-- The demo goes through the places at which the whole display lies inside the font (R207). -/
theorem demoing_timeline : Timeline (s.demoing c) DemoEnded c.toNat s.cfg.scrollTicks (96 - s.ndig.toNat) where
  ticks_pos := by obtain ⟨-, -, -, hscroll, -⟩ := s.cfg.ok; exact hscroll
  period_pos := by omega
  wait k p l hk := (advance_of_demo (s := s.demoing c k p l) rfl).trans (interval_of_waiting _ hk)
  move k p l hk hp := by
    rw [advance_demoing_due hk, demoStep_of_inside]
    · simp only [State.demoing, BitVec.ofNat_add]
      rfl
    · show (BitVec.ofNat 7 p).toNat + 1 + s.ndig.toNat ≤ 95
      rw [demoPlace_toNat hp.le]
      omega
  wrapEndless k p l hk hp hc := by
    rw [advance_demoing_end hk hp]
    exact countDemoCycle_of_endless ((count_eq_zero_iff c).mp hc)
  wrap k p l hk hp hmore hle := by
    rw [advance_demoing_end hk hp, countDemoCycle_of_more (count_ne_zero_of_two_le hmore hle) (two_le_count hmore hle)]
    simp only [State.demoing, count_ofNat_sub_one (show 1 ≤ l by omega)]
  last k p hk hp hc := by
    rw [advance_demoing_end hk hp, countDemoCycle_of_last (mt (count_eq_zero_iff c).mpr hc) rfl]
    exact ⟨rfl, rfl, rfl⟩
  ended _ hu := hu.advance

/-- Settles O36: the places of the demo are its font cursors, and `demoing` writes no register of the effect but the timer. -/
theorem demoTimeline : Obligations.DemoTimeline := by
  intro s t u c n ticks period hticks hperiod ht hu
  obtain rfl := Host.Outcome.next.inj ((exec_setDemo c s).symm.trans ht)
  have htime : Timeline ((s.respond .ok 0).demoing c) DemoEnded c.toNat ticks period := by
    rw [hticks, hperiod]
    exact demoing_timeline
  rw [hu]
  refine ⟨fun hn => ?_, fun hc hn => ?_⟩
  · have hplace : n / ticks % period + 1 ≤ 96 - s.ndig.toNat := by
      rw [← hperiod]
      exact Nat.mod_lt _ htime.period_pos
    rw [htime.iterate_of_running n (hn.imp_left (count_eq_zero_iff c).mpr), Nat.mul_comm period, ← Nat.div_div_eq_div_mul]
    exact ⟨rfl, demoPlace_toNat hplace, count_left_toNat c _, rfl, rfl, rfl, rfl⟩
  · have hend := htime.ended_of_le (mt (count_eq_zero_iff c).mp hc) hn
    exact ⟨hend.noDemo, hend.atStart, hend.noneLeft⟩

end Sys2Proof.Machine
end

section
/-! PROOFS. The adjacent BrightnessController (R240 to R245): the clamp of a fraction, the rounding of its duty, the three calls, and
the steps that take them. -/

namespace Sys2Proof.Machine

/-! The clamp (R242) -/

variable {f : Fraction}

theorem clamp_of_nonpos (h : f.num ≤ 0) : f.clamp = ⟨0, 0⟩ := if_pos h

theorem clamp_of_one_le (h : (f.denPred : Int) + 1 ≤ f.num) : f.clamp = ⟨1, 0⟩ := by
  rw [Fraction.clamp, if_neg (by omega), if_pos h]

theorem clamp_of_inside (hpos : 0 < f.num) (hlt : f.num < f.denPred + 1) : f.clamp = f := by
  rw [Fraction.clamp, if_neg (by omega), if_neg (by omega)]

/-- A positive fraction is never clamped to 0, so only a call with 0 escapes the skip of R243. -/
theorem clamp_num_ne_zero (hpos : 0 < f.num) : f.clamp.num ≠ 0 := by
  obtain hone | hlt := le_or_gt ((f.denPred : Int) + 1) f.num
  · simp [clamp_of_one_le hone]
  · rw [clamp_of_inside hpos hlt]
    exact hpos.ne'

/-! The duty (R242, D31) -/

theorem dutyOf_zero (m : Nat) : dutyOf ⟨0, 0⟩ m = 0 := by simp [dutyOf]

theorem dutyOf_one (m : Nat) : dutyOf ⟨1, 0⟩ m = m := by
  simp only [dutyOf, Int.toNat_one]
  omega

/-- `duty` is `f` times `m`, rounded half up: `duty ≤ f * m + 1/2 < duty + 1`, both sides times twice the denominator. -/
def RoundsHalfUp (f : Fraction) (m duty : Nat) : Prop :=
  2 * ((f.denPred : Int) + 1) * duty ≤ 2 * f.num * m + (f.denPred + 1) ∧
    2 * f.num * m + ((f.denPred : Int) + 1) < 2 * (f.denPred + 1) * (duty + 1)

/-- The duty is a floored quotient, which lies below the quotient by less than 1. -/
theorem dutyOf_roundsHalfUp (hnum : 0 ≤ f.num) (m : Nat) : RoundsHalfUp f m (dutyOf f m) := by
  obtain ⟨num, d⟩ := f
  lift num to Nat using hnum
  have hlow : 2 * (d + 1) * dutyOf ⟨num, d⟩ m ≤ 2 * num * m + (d + 1) := Nat.mul_div_le _ _
  have hhigh : 2 * num * m + (d + 1) < 2 * (d + 1) * (dutyOf ⟨num, d⟩ m + 1) := Nat.lt_mul_div_succ _ (by omega)
  dsimp only [RoundsHalfUp]
  exact_mod_cast And.intro hlow hhigh

/-- Inside [0, 1] the clamp keeps the value of a fraction, at the ends as well, where it may change the denominator. -/
theorem dutyOf_clamp_roundsHalfUp (hnum : 0 ≤ f.num) (hone : f.num ≤ f.denPred + 1) (m : Nat) :
    RoundsHalfUp f m (dutyOf f.clamp m) := by
  obtain hzero | hpos := hnum.eq_or_lt
  · rw [clamp_of_nonpos hzero.ge, dutyOf_zero, RoundsHalfUp, ← hzero, Nat.cast_zero]
    constructor <;> linarith
  · obtain heq | hlt := hone.eq_or_lt
    · rw [clamp_of_one_le heq.ge, dutyOf_one, RoundsHalfUp, heq]
      constructor <;> linarith
    · rw [clamp_of_inside hpos hlt]
      exact dutyOf_roundsHalfUp hnum m

/-! The three calls (R241 to R244) -/

variable {b : Brightness}

theorem same_eq_true_iff {g : Fraction} : f.same g = true ↔ f.num * (g.denPred + 1) = g.num * (f.denPred + 1) :=
  decide_eq_true_iff

/-- A brightness that is the applied one and not 0 is skipped (R243). -/
theorem setBrightness_of_same (hpos : 0 < f.num) (hsame : f.clamp.same b.applied = true) : setBrightness f b = b := by
  simp [setBrightness, hsame, clamp_num_ne_zero hpos]

/-- A brightness that is 0 or differs from the applied one is set, and its duty waits (R243). -/
theorem setBrightness_of_changed (hok : b.pwmFailed = false) (hset : f.num ≤ 0 ∨ ¬ f.clamp.same b.applied = true) :
    setBrightness f b = { b with fraction := f.clamp, dirty := true } := by
  have hkept : ¬ (f.clamp.same b.applied && !decide (f.clamp.num = 0)) = true := by
    obtain hzero | hdiffers := hset
    · simp [clamp_of_nonpos hzero]
    · simp [hdiffers]
  rw [setBrightness, if_neg (by simp [hok]), if_neg hkept]

/-- A pending duty is written, and its brightness is then the applied one (R243). -/
theorem writeDuty_of_dirty (hdirty : b.dirty = true) (hok : b.pwmFailed = false) :
    writeDuty b = { b with duty := dutyOf b.fraction b.maxDuty, applied := b.fraction, dirty := false } := by
  simp [writeDuty, hdirty, hok]

/-- The PWM's answer 0 is a failure, on the first `configure` and on any other (R241). -/
theorem configurePwm_zero_pwmFailed (r : Nat) (b : Brightness) : (configurePwm r 0 b).pwmFailed = true := by
  unfold configurePwm
  split
  · next hfailed => exact hfailed
  · rfl

/-- Any other answer is the maximum duty (R241). -/
theorem configurePwm_of_answer {m : Nat} (r : Nat) (hok : b.pwmFailed = false) (hm : m ≠ 0) :
    configurePwm r m b = { b with resolutionBits := r, maxDuty := m } := by
  simp [configurePwm, hok, hm]

/-! After a PWM failure each call is a no-op, and the display is never blanked (R244). -/

theorem setBrightness_of_pwmFailed (f : Fraction) (hfailed : b.pwmFailed = true) : setBrightness f b = b := if_pos hfailed

theorem configurePwm_of_pwmFailed (r m : Nat) (hfailed : b.pwmFailed = true) : configurePwm r m b = b := if_pos hfailed

theorem writeDuty_of_pwmFailed (hfailed : b.pwmFailed = true) : writeDuty b = b := by simp [writeDuty, hfailed]

theorem blankedCounts_of_pwmFailed (hfailed : b.pwmFailed = true) : blankedCounts b = 0 := if_pos hfailed

/-! The steps that take the calls; nothing but `bright` and the events changes (R245). -/

variable {s : State} {rest : List Event}

theorem step_setBrightness (hev : s.events = .setBrightness f :: rest) :
    step s = .next { s with bright := setBrightness f s.bright, events := rest } := step_of_event hev

theorem step_configurePwm {r m : Nat} (hev : s.events = .configurePwm r m :: rest) :
    step s = .next { s with bright := configurePwm r m s.bright, events := rest } := step_of_event hev

theorem step_writeDuty (hev : s.events = .writeDuty :: rest) :
    step s = .next { s with bright := writeDuty s.bright, events := rest } := step_of_event hev

/-- Settles O58: each clause is the step that takes the call, with what the call does in that case. -/
theorem brightnessSkipped : Obligations.BrightnessSkipped := by
  refine ⟨fun s f rest hev hpos hsame => ?_, fun s e rest hev hfailed he => ⟨?_, blankedCounts_of_pwmFailed hfailed⟩,
    fun s r rest hev => ⟨_, step_configurePwm hev, configurePwm_zero_pwmFailed r s.bright, rfl⟩,
    fun s r m rest hev hok hm => ?_⟩
  · rw [step_setBrightness hev, setBrightness_of_same hpos (same_eq_true_iff.mpr hsame)]
  · obtain ⟨f, rfl⟩ | ⟨r, m, rfl⟩ | rfl := he
    · rw [step_setBrightness hev, setBrightness_of_pwmFailed f hfailed]
    · rw [step_configurePwm hev, configurePwm_of_pwmFailed r m hfailed]
    · rw [step_writeDuty hev, writeDuty_of_pwmFailed hfailed]
  · rw [step_configurePwm hev, configurePwm_of_answer r hok hm]

/-- Settles O57: the first step sets the clamped fraction, and the second writes the duty of it. -/
theorem brightnessDuty : Obligations.BrightnessDuty := by
  intro s f den rest hev hok hden hchanged
  subst hden
  have hset := setBrightness_of_changed hok (hchanged.imp_right (mt same_eq_true_iff.mp))
  have hwrite := writeDuty_of_dirty (b := { s.bright with fraction := f.clamp, dirty := true }) rfl hok
  have hfirst := step_setBrightness hev
  rw [hset] at hfirst
  have hsecond := step_writeDuty
    (s := { s with bright := { s.bright with fraction := f.clamp, dirty := true }, events := .writeDuty :: rest }) rfl
  rw [hwrite] at hsecond
  refine ⟨_, _, hfirst, rfl, rfl, fun hnum => ?_, fun hnum => ?_, clamp_of_inside, hsecond, rfl, rfl, rfl, rfl, rfl, hok,
    fun hnum => ?_, fun hnum => ?_, fun hnum hone => dutyOf_clamp_roundsHalfUp hnum hone s.bright.maxDuty⟩
  · rw [clamp_of_nonpos hnum]
  · rw [clamp_of_one_le hnum]; rfl
  · simp only [clamp_of_nonpos hnum, dutyOf_zero]
  · simp only [clamp_of_one_le hnum, dutyOf_one]

end Sys2Proof.Machine
end
